-- ==== Sys2Proof/Word.lean ====
section
/-!
DEFINITION. The word types of the block: bytes of frames and buffers, sequence numbers, host words.
-/
namespace Sys2Proof

/-- A byte of a frame or a buffer (20_memory R202, R216: the ports move 8 bits per transfer). -/
abbrev Byte := BitVec 8

/-- A sequence number, 16 bits unsigned, defined mod 65536 (00_scope R10). -/
abbrev Seq := BitVec 16

/-- A host bus word or a command word, 32 bits (20_memory R216, 30_encoding R300). -/
abbrev Word := BitVec 32

end Sys2Proof
end

