-- ==== Sys2Proof/Config.lean ====
section
/-!
DEFINITION. What is fixed for one machine: the constants of 00_scope R10, the open synthesis parameter WMAX
(R9), and the free values the spec leaves open, each an opaque constant with no body.
-/
namespace Sys2Proof.Config

/-- `HDR_LEN` (R10): checksum 1 byte, sequence number 2, flag 1. -/
def hdrLen : Nat := 4

/-- `MAX_PAYLOAD` (R10). -/
def maxPayload : Nat := 996

/-- `MAX_FRAME` (R10): `HDR_LEN + MAX_PAYLOAD`. -/
def maxFrame : Nat := 1000

/-- WMAX less one, any value of the legal range 1 to 32767 (R9). FREE: log entry 4. -/
opaque wmaxLessOne : Fin 32767

/-- `WMAX`, the largest window the block supports (R9), OPEN: `1 <= WMAX <= 32767`. Log entry 4. -/
def wmax : BitVec 16 := BitVec.ofNat 16 (wmaxLessOne.val + 1)

/-- What the buffer byte at a host byte address holds before the host or an ENCODE writes it
(93_implementation_defined U7, U10). FREE: log entry 5. -/
opaque powerOnByte : Nat → Byte

/-- Whether a read made while `ST = CODEC` shows the value after the command (43_host_bus R701, 93 U8).
The first argument counts the free values drawn so far, the second is the byte lane. FREE: log entry 9. -/
opaque codecReadsNew : Nat → Nat → Bool

/-- `hb_rdata` in a cycle with both strobes (43_host_bus R700, 93 U11). FREE: log entry 7. -/
opaque bothStrobesData : Nat → Word

/-- Whether an ENCODE that a reset abandons has written the frame byte of a host byte address by then (10_state R141,
92_eei_decisions D40, 93 U10). The first argument counts the free values drawn so far. FREE: log entry 22. -/
opaque abandonedByteWritten : Nat → Nat → Bool

end Sys2Proof.Config
end

