-- ==== Sys2Proof/Syntax.lean ====
section
/-!
DEFINITION. The commands of the block, one constructor per row of spec/opcode_table.json. Operands are the
fields of the command word (30_encoding R301, R302), each at its encoded width; a field a command does not
use is not an operand (R304: it must be 0).
-/
namespace Sys2Proof

/-- A command word that spells a command (30_encoding R304). -/
inductive Instr where
  /-- `ENCODE flag, len, seq` (40_codec R410). -/
  | encode (flag : BitVec 2) (len : BitVec 10) (seq : Seq)
  /-- `DECODE` (40_codec R420). -/
  | decode
  /-- `SEND.FIRST len` (41_arq_send R520). -/
  | sendFirst (len : BitVec 10)
  /-- `SEND.MIDDLE len` (41_arq_send R520). -/
  | sendMiddle (len : BitVec 10)
  /-- `SEND.LAST len` (41_arq_send R530). -/
  | sendLast (len : BitVec 10)
  /-- `SENDALL` (41_arq_send R540). -/
  | sendall
  deriving DecidableEq, Repr

end Sys2Proof
end

