-- ==== Sys2Proof/WellFormed.lean ====
section
/-!
DEFINITION. The legal operand values of a command (30_encoding R304, columns FLAG and LEN). An ill-formed
command still has an encoding and a meaning: it completes with an error code (60_exceptions R802).
-/
namespace Sys2Proof

/-- `LEN` is a payload length, 0 to 996 (R301, R304). -/
def legalLen (len : BitVec 10) : Bool := decide (len.toNat ≤ Config.maxPayload)

/-- `FLAG` is 0, 1 or 2; 3 is illegal (R301, R304). -/
def legalFlag (flag : BitVec 2) : Bool := decide (flag ≠ 3#2)

/-- Every operand has a value R304 allows. -/
def Instr.wellFormed : Instr → Bool
  | .encode flag len _ => legalFlag flag && legalLen len
  | .decode => true
  | .sendFirst len => legalLen len
  | .sendMiddle len => legalLen len
  | .sendLast len => legalLen len
  | .sendall => true

end Sys2Proof
end

