-- ==== Sys2Proof/Decode.lean ====
section
/-!
DEFINITION. The command decoder, total on every 32-bit word, and the encoder, both from the field table of
30_encoding R301 and the rows of R304. A word that matches no row is rejected by the name of the check of
60_exceptions R802 it fails.
-/
namespace Sys2Proof

/-- Why a word spells no command: checks 1, 2 and 3 of 60_exceptions R802. -/
inductive DecodeError where
  /-- `OP` is 0 or 5 to 15 (check 1, `ERR_OPCODE`). -/
  | opcode
  /-- A field the command does not use is not 0 (check 2, `ERR_RESERVED`). -/
  | reserved
  /-- A SEND with `FLAG` = 3 (check 3, `ERR_FLAG`). -/
  | flag
  deriving DecidableEq, Repr

/-- What the decoder answers. -/
inductive Decoded where
  | command (i : Instr)
  | rejected (why : DecodeError)
  deriving DecidableEq, Repr

/-- `OP = w[3:0]` (R302). -/
def opField (w : Word) : BitVec 4 := w.extractLsb' 0 4

/-- `FLAG = w[5:4]` (R302). -/
def flagField (w : Word) : BitVec 2 := w.extractLsb' 4 2

/-- `LEN = w[15:6]` (R302). -/
def lenField (w : Word) : BitVec 10 := w.extractLsb' 6 10

/-- `SEQ = w[31:16]` (R302). -/
def seqField (w : Word) : Seq := w.extractLsb' 16 16

/-- A row all of whose other fields must be 0 (DECODE, SENDALL): `w[31:4] = 0` (R304). -/
def decodeBare (w : Word) (i : Instr) : Decoded :=
  if w.extractLsb' 4 28 = 0#28 then .command i else .rejected .reserved

/-- The three SEND rows, chosen by `FLAG`; `SEQ` must be 0 (R303, R304). -/
def decodeSend (w : Word) : Decoded :=
  if seqField w = 0#16 then
    if flagField w = 0#2 then .command (.sendFirst (lenField w))
    else if flagField w = 1#2 then .command (.sendMiddle (lenField w))
    else if flagField w = 2#2 then .command (.sendLast (lenField w))
    else .rejected .flag
  else .rejected .reserved

/-- The opcode map of R303. -/
def decodeWord (w : Word) : Decoded :=
  if opField w = 1#4 then .command (.encode (flagField w) (lenField w) (seqField w))
  else if opField w = 2#4 then decodeBare w .decode
  else if opField w = 3#4 then decodeSend w
  else if opField w = 4#4 then decodeBare w .sendall
  else .rejected .opcode

/-- The command of an answer, if it is one. -/
def Decoded.command? : Decoded → Option Instr
  | .command i => some i
  | .rejected _ => none

/-- `w = SEQ << 16 | LEN << 6 | FLAG << 4 | OP` (R301), by concatenation. -/
def packWord (seq : Seq) (len : BitVec 10) (flag : BitVec 2) (op : BitVec 4) : Word :=
  seq ++ len ++ flag ++ op

/-- The word of a command (R304, R320). -/
def encodeWord : Instr → Word
  | .encode flag len seq => packWord seq len flag 1#4
  | .decode => packWord 0#16 0#10 0#2 2#4
  | .sendFirst len => packWord 0#16 len 0#2 3#4
  | .sendMiddle len => packWord 0#16 len 1#2 3#4
  | .sendLast len => packWord 0#16 len 2#2 3#4
  | .sendall => packWord 0#16 0#10 0#2 4#4

/-- The row's `match` value in R304. -/
def rowMatch : Instr → Word
  | .encode _ _ _ => 0x00000001#32
  | .decode => 0x00000002#32
  | .sendFirst _ => 0x00000003#32
  | .sendMiddle _ => 0x00000013#32
  | .sendLast _ => 0x00000023#32
  | .sendall => 0x00000004#32

/-- The row's `mask` value in R304. -/
def rowMask : Instr → Word
  | .encode _ _ _ => 0x0000000F#32
  | .decode => 0xFFFFFFFF#32
  | .sendFirst _ => 0xFFFF003F#32
  | .sendMiddle _ => 0xFFFF003F#32
  | .sendLast _ => 0xFFFF003F#32
  | .sendall => 0xFFFFFFFF#32

/-- The word whose low `nbits` bits are those of `w`, every higher bit 0. A command word is one 32-bit
register write and has no byte order (20_memory R214). -/
def tableWord (nbits w : Nat) : Word := BitVec.ofNat 32 (w % 2 ^ nbits)

/-- What the decoder reads from a row's word. -/
def decodeTableWord (nbits w : Nat) : Option Instr := (decodeWord (tableWord nbits w)).command?

end Sys2Proof
end

