-- ==== Sys2Proof/Machine/State.lean ====
section
/-!
DEFINITION. The state of the block (10_state.md), of the environment agents it is connected to (00_scope R8),
and the list of agent steps still to come. Plain data. Each field names the rule that gives it; reset values
are those of 70_reset_and_hazards R902, and a value the spec leaves open names its log entry.
-/
namespace Sys2Proof.Machine

/-- `ST`, the sequencer state, 3 bits (10_state R110). -/
inductive SeqState where
  /-- 0, no command in progress. -/
  | idle
  /-- 1, an ENCODE or DECODE in progress. -/
  | codec
  /-- 2, a newly sent frame is being emitted. -/
  | tx
  /-- 3, a retransmission round is being emitted. -/
  | retx
  /-- 4, waiting for an inbound frame or for the attempt to expire. -/
  | waitAck
  /-- 5, an inbound frame is being received. -/
  | rx
  /-- 6, never taken (R110; a fault state, 93 U15). -/
  | code6
  /-- 7, never taken (R110; a fault state, 93 U15). -/
  | code7
  deriving DecidableEq, Repr

/-- A packet's flag (00_scope R10): FIRST 0, MIDDLE 1, LAST 2. -/
inductive PacketFlag where
  | first
  | middle
  | last
  deriving DecidableEq, Repr

/-- `TX_CONT`: what the sequencer does when `TXQ` becomes empty (10_state R117). -/
inductive TxCont where
  | loop
  | finish
  deriving DecidableEq, Repr

/-- `CTRL.GIVEUP_POLICY` (10_state R162): 0 FATAL, 1 DROP, 2 RETRY; 3 is never held (WARL). -/
inductive GiveupPolicy where
  | fatal
  | drop
  | retry
  deriving DecidableEq, Repr

/-- A frame: a byte string, byte 0 first on the wire (20_memory R202). -/
abbrev Frame := List Byte

/-- Buffer bytes by host byte address, addresses strictly rising, only bytes written so far (log entry 5). -/
abbrev Memory := List Host.Cell

/-- A codec command between its acceptance and its completion, with what it will write
(40_codec R410, R420; log entry 8). -/
inductive CodecJob where
  /-- ENCODE: the frame for `CBUF`. -/
  | encode (frame : Frame)
  /-- DECODE: the words for `DEC_RESULT` and `DEC_SEQ`. -/
  | decode (result seqWord : Word)
  deriving DecidableEq, Repr

/-- The host addressable registers (20_memory R204). -/
inductive Reg where
  | id | param | ctrl | windowSize | ackWait | giveup | cmd | status | irqEnable | irqPending
  | nextSeq | oldestSeq | inFlight | fifoCount | headSeq | sessionCnt | attemptCnt
  | retxCount | ackCount | badCsumCount | malformedCount | truncCount | cbufLen | decResult | decSeq
  deriving DecidableEq, Repr

/-- What a host address selects (20_memory R203 to R207). -/
inductive Target where
  | reg (r : Reg)
  /-- Word `k` of the `TXBUF` window. -/
  | txbuf (k : Nat)
  /-- Word `k` of the `CBUF` window. -/
  | cbuf (k : Nat)
  | reserved
  deriving DecidableEq, Repr

/-- One host bus cycle (43_host_bus R700, R702). -/
inductive HostAccess where
  /-- `hb_re` = 1, `hb_we` = 0. -/
  | read (addr : BitVec 12)
  /-- `hb_we` = 1, `hb_re` = 0. -/
  | write (addr : BitVec 12) (data : Word)
  /-- Both strobes: a write, `hb_rdata` unspecified (R700). -/
  | readWrite (addr : BitVec 12) (data : Word)
  deriving DecidableEq, Repr

/-- What the agents drive in one `clk` cycle when several act in it (60_exceptions R823). -/
structure Cycle where
  /-- `rst`. -/
  rst : Bool
  /-- The host bus strobes. -/
  host : Option HostAccess
  /-- The sequencer finishes a codec command in this cycle (cycle counts are unspecified, 10_state R102). -/
  codecGo : Bool
  /-- `tx_ready`. -/
  txReady : Bool
  /-- `rx_valid`. -/
  rxValid : Bool
  /-- `tick`. -/
  tick : Bool
  deriving DecidableEq, Repr

/-- One step of an agent (00_scope R8). -/
inductive Event where
  /-- The reset source asserts `rst` for a cycle (70_reset R900). -/
  | reset
  /-- The host makes one bus access. -/
  | host (access : HostAccess)
  /-- The sequencer finishes the codec command in progress (40_codec R410, R420). -/
  | codecDone
  /-- The TX sink drives `tx_ready` = 1 for one byte (20_memory R220). -/
  | txByte
  /-- The TX sink accepts the whole head frame of `TXQ` (20_memory R220, 41_arq_send R511). -/
  | txFrame
  /-- The destination's datagram reaches the transport (20_memory R222, R223). -/
  | rxDatagram (frame : Frame)
  /-- The RX source drives `rx_valid` = 1 with its next byte (20_memory R222). -/
  | rxByte
  /-- The RX source delivers one whole frame in one step (20_memory R224). -/
  | rxFrame
  /-- The tick source pulses `tick` (10_state R104). -/
  | tick
  /-- Several agents act in one cycle (60_exceptions R823). -/
  | cycle (c : Cycle)
  deriving DecidableEq, Repr

/-- The configuration registers (00_scope R11) and the hardwired `WMAX`. -/
structure ConfigRegs where
  /-- `WMAX`, hardwired, read in `PARAM[15:0]` (00_scope R9, 10_state R161). -/
  wmax : BitVec 16
  /-- `CTRL.GIVEUP_POLICY` (10_state R162). -/
  policy : GiveupPolicy
  /-- `WINDOW_SIZE.W` (10_state R163). -/
  windowSize : BitVec 16
  /-- `ACK_WAIT` (10_state R164). -/
  ackWait : BitVec 16
  /-- `GIVEUP` (10_state R165). -/
  giveup : BitVec 16
  deriving DecidableEq, Repr

/-- The ARQ session (10_state R112 to R116, R120 to R133). -/
structure Session where
  /-- `FAILED` (R112). -/
  failed : Bool
  /-- `CUR_FLAG` (R113). -/
  curFlag : PacketFlag
  /-- `LAST_SENT` (R114). -/
  lastSent : Bool
  /-- `CFG_LOCKED` (R116). -/
  cfgLocked : Bool
  /-- `PENDING` (R115). -/
  pending : Frame
  /-- `NEXT_SEQ` (R120). -/
  nextSeq : Seq
  /-- `IN_FLIGHT`, two's complement (R121). -/
  inFlight : BitVec 18
  /-- `OLDEST_SEQ` (R122). -/
  oldestSeq : Seq
  /-- The outstanding FIFO, oldest first (R130); its bound is an invariant (R132; log entry 13). -/
  fifo : List Frame
  deriving DecidableEq, Repr

/-- The two timers, in ticks (10_state R150, R151). -/
structure Timers where
  sessionCnt : BitVec 16
  attemptCnt : BitVec 16
  deriving DecidableEq, Repr

/-- `TXQ`, the index of the next byte of its head frame, and `TX_CONT` (10_state R117). -/
structure Emission where
  queue : List Frame
  index : Nat
  cont : TxCont
  deriving DecidableEq, Repr

/-- The RX receive state (10_state R190). -/
structure RxRegs where
  /-- `RX_ACTIVE`. -/
  active : Bool
  /-- `RX_LEN`, counted up to 1001 and then held. -/
  len : Nat
  /-- `RX_B0`. -/
  b0 : Byte
  /-- `RX_SEQ`. -/
  seq : Seq
  /-- `RX_SUM`. -/
  sum : Byte
  deriving DecidableEq, Repr

/-- The event counters, 32 bits, wrapping (10_state R180 to R184). -/
structure Counters where
  retx : Word
  ack : Word
  badCsum : Word
  malformed : Word
  trunc : Word
  deriving DecidableEq, Repr

/-- The codec registers (10_state R142, R185, R186) and the codec command in progress. -/
structure CodecRegs where
  cbufLen : BitVec 10
  decResult : Word
  decSeq : Word
  job : Option CodecJob
  deriving DecidableEq, Repr

/-- `IRQ_PENDING` and `IRQ_ENABLE`, bits [4:0] (10_state R168, R169). -/
structure IrqRegs where
  pending : BitVec 5
  enable : BitVec 5
  deriving DecidableEq, Repr

/-- The TX sink: the datagrams it has taken whole, oldest first, and the bytes of the one it is taking
(20_memory R220, R221; 70_reset R903). -/
structure TxSink where
  frames : List Frame
  part : Frame
  deriving DecidableEq, Repr

/-- The RX source: the rest of the datagram it is delivering, and the datagrams that wait, in order
(20_memory R222, R223; 70_reset R903). -/
structure RxSource where
  rest : Frame
  waiting : List Frame
  deriving DecidableEq, Repr

/-- The whole machine. -/
structure State where
  /-- `ST` (R110). -/
  st : SeqState
  /-- `STATUS.ERR` (R167, 60_exceptions R801). -/
  err : BitVec 4
  irq : IrqRegs
  cfg : ConfigRegs
  sess : Session
  timers : Timers
  emission : Emission
  rxr : RxRegs
  counters : Counters
  codec : CodecRegs
  /-- `TXBUF` and `CBUF` (R140, R141). -/
  mem : Memory
  /-- `hb_rdata`: the word the last host read returned (R100; log entry 7). -/
  rdata : Word
  sink : TxSink
  source : RxSource
  /-- The agent steps still to come, next first (model's own; log entry 1). -/
  inputs : List Event
  /-- How many free values have been drawn (model's own; log entry 9). -/
  freeCount : Nat
  deriving DecidableEq, Repr

/-- Why the machine stops: the states 93_implementation_defined calls fault states. -/
inductive Fault where
  /-- `ST` holds 6 or 7 (93 U15). Raised by every event but a reset; no rule leads there. Safe. -/
  | sequencerCode
  /-- `STATUS.ERR` holds 9 to 15 (93 U16). Raised by every event but a reset; no rule leads there. Safe. -/
  | errorCode
  deriving DecidableEq, Repr

/-- Why an instruction has no meaning. -/
inductive Refusal where
  /-- An instruction with no meaning yet. No arm of `exec` raises it: every command is modelled. Safe. -/
  | notModelled (mnemonic : String)
  deriving DecidableEq, Repr

/-- Right after reset (70_reset R902). `PENDING`, the emission index and the RX registers hold values the
spec leaves open (log entry 6), as do `rdata` (7), the agents (11), `inputs` (1) and `freeCount` (9); `wmax` is the
OPEN parameter (4); memory lists nothing (5). -/
def State.reset : State where
  st := .idle
  err := 0#4
  irq := { pending := 0#5, enable := 0#5 }
  cfg := { wmax := Config.wmax, policy := .fatal, windowSize := 1#16, ackWait := 2#16, giveup := 5#16 }
  sess := { failed := false, curFlag := .first, lastSent := false, cfgLocked := false
            pending := [0#8, 0#8, 0#8, 0#8], nextSeq := 0#16, inFlight := 0#18, oldestSeq := 0#16, fifo := [] }
  timers := { sessionCnt := 0#16, attemptCnt := 0#16 }
  emission := { queue := [], index := 0, cont := .finish }
  rxr := { active := false, len := 0, b0 := 0#8, seq := 0#16, sum := 0#8 }
  counters := { retx := 0#32, ack := 0#32, badCsum := 0#32, malformed := 0#32, trunc := 0#32 }
  codec := { cbufLen := 0#10, decResult := 0#32, decSeq := 0#32, job := none }
  mem := []
  rdata := 0#32
  sink := { frames := [], part := [] }
  source := { rest := [], waiting := [] }
  inputs := []
  freeCount := 0

end Sys2Proof.Machine
end

