-- ==== Sys2Proof/Machine/Flags.lean ====
section
/-!
DEFINITION. Status and interrupt flags: the `STATUS` word, the error codes, the pending bits, the `irq` level,
the port outputs, and the acceptance checks of 60_exceptions R802 that look at operands and state.
-/
namespace Sys2Proof.Machine

/-- The 3-bit code of `ST` (10_state R110). -/
def SeqState.code : SeqState → BitVec 3
  | .idle => 0#3
  | .codec => 1#3
  | .tx => 2#3
  | .retx => 3#3
  | .waitAck => 4#3
  | .rx => 5#3
  | .code6 => 6#3
  | .code7 => 7#3

/-- The 2-bit code of the giveup policy (10_state R162). -/
def GiveupPolicy.code : GiveupPolicy → BitVec 2
  | .fatal => 0#2
  | .drop => 1#2
  | .retry => 2#2

/-- The policy a write of `CTRL[1:0]` selects; 3 is illegal (10_state R162). -/
def GiveupPolicy.ofField? (f : BitVec 2) : Option GiveupPolicy :=
  if f = 0#2 then some .fatal
  else if f = 1#2 then some .drop
  else if f = 2#2 then some .retry
  else none

/-- Error codes (60_exceptions R801). -/
abbrev ErrCode := BitVec 4

def errOk : ErrCode := 0#4
def errOpcode : ErrCode := 1#4
def errReserved : ErrCode := 2#4
def errFlag : ErrCode := 3#4
def errLength : ErrCode := 4#4
def errMalformed : ErrCode := 5#4
def errFailed : ErrCode := 6#4
def errGiveup : ErrCode := 7#4
def errGiveupDropped : ErrCode := 8#4

/-- `IRQ_PENDING.DONE`, bit 0 (10_state R169). -/
def doneBit : BitVec 5 := 0x01#5

/-- `IRQ_PENDING.ERR`, bit 1. -/
def errBit : BitVec 5 := 0x02#5

/-- `IRQ_PENDING.GIVEUP`, bit 2. -/
def giveupBit : BitVec 5 := 0x04#5

/-- `IRQ_PENDING.OVERRUN`, bit 3. -/
def overrunBit : BitVec 5 := 0x08#5

/-- `IRQ_PENDING.WR_IGNORED`, bit 4. -/
def wrIgnoredBit : BitVec 5 := 0x10#5

/-- `BUSY` is 1 exactly when `ST` is not IDLE (10_state R111). -/
def State.busy (s : State) : Bool := decide (s.st ≠ .idle)

/-- `fifo_len()` (00_scope R14). -/
def State.fifoLen (s : State) : Nat := s.sess.fifo.length

/-- `HEAD_SEQ`, computed (10_state R123). -/
def State.headSeq (s : State) : Seq := s.sess.nextSeq - BitVec.ofNat 16 s.fifoLen

/-- The `STATUS` word (10_state R167). -/
def State.statusWord (s : State) : Word :=
  0#16 ++ s.err ++ 0#1 ++ s.st.code ++ 0#3 ++ BitVec.ofBool (decide (s.sess.curFlag = .last))
    ++ BitVec.ofBool s.sess.lastSent ++ BitVec.ofBool s.sess.cfgLocked ++ BitVec.ofBool s.sess.failed
    ++ BitVec.ofBool s.busy

/-- Set pending bits (a bit is set whatever its enable is, 60_exceptions R821). -/
def setPending (bits : BitVec 5) (s : State) : State :=
  { s with irq := { s.irq with pending := s.irq.pending ||| bits } }

/-- The `irq` output: OR of the enabled pending bits (60_exceptions R820). -/
def State.irqLine (s : State) : Bool := decide (s.irq.pending &&& s.irq.enable ≠ 0#5)

/-- `rx_ready` is 1 exactly in WAIT_ACK and RX (20_memory R223). -/
def State.rxReady (s : State) : Bool := decide (s.st = .waitAck ∨ s.st = .rx)

/-- The states in which frames are emitted (20_memory R220). -/
def State.emitting (s : State) : Bool := decide (s.st = .tx ∨ s.st = .retx)

/-- What the TX port offers: `tx_data` and `tx_last` when `tx_valid` = 1, none when it is 0 (20_memory R220). -/
def State.txOffer (s : State) : Option (Byte × Bool) :=
  if s.emitting then
    match s.emission.queue with
    | [] => none
    | f :: _ =>
      match f[s.emission.index]? with
      | none => none
      | some b => some (b, decide (s.emission.index + 1 = f.length))
  else none

/-- `sat_16(v + 1)` (00_scope R13, R17). -/
def satSucc (v : BitVec 16) : BitVec 16 := BitVec.ofNat 16 (min (v.toNat + 1) 65535)

/-- Check 4 of R802: `LEN` > 996. -/
def lengthCheck (len : BitVec 10) : Option ErrCode :=
  if Config.maxPayload < len.toNat then some errLength else none

/-- Check 6 of R802: `FAILED` = 1. -/
def failedCheck (s : State) : Option ErrCode :=
  if s.sess.failed then some errFailed else none

/-- Check 5 of R802: `CBUF_LEN` below 4 or above 1000. -/
def malformedCheck (s : State) : Option ErrCode :=
  if s.codec.cbufLen.toNat < Config.hdrLen ∨ Config.maxFrame < s.codec.cbufLen.toNat then some errMalformed else none

/-- Checks 4 and 6 of R802, in that order: those a SEND that spells a row can fail. -/
def sendCheck (len : BitVec 10) (s : State) : Option ErrCode :=
  match lengthCheck len with
  | some c => some c
  | none => failedCheck s

/-- A fault state of 93 U15 or U16. -/
def State.illegal? (s : State) : Option Fault :=
  if s.st = .code6 ∨ s.st = .code7 then some .sequencerCode
  else if 8 < s.err.toNat then some .errorCode
  else none

end Sys2Proof.Machine
end

