-- ==== Sys2Proof/Machine/Frame.lean ====
section
/-!
DEFINITION. packet_codec: the checksum, the frame builder and the frame splitter (40_codec.md, section 1), and
the small byte helpers they use.
-/
namespace Sys2Proof.Machine

/-- The flag byte of a packet flag (00_scope R10, 30_encoding R310). -/
def PacketFlag.code : PacketFlag → Byte
  | .first => 0#8
  | .middle => 1#8
  | .last => 2#8

/-- The packet flag of a command's `FLAG` field; 3 is none (30_encoding R301). -/
def PacketFlag.ofField? (f : BitVec 2) : Option PacketFlag :=
  if f = 0#2 then some .first
  else if f = 1#2 then some .middle
  else if f = 2#2 then some .last
  else none

/-- Byte `i` of a frame; 0 past its end, where no rule reads. -/
def byteAt (f : Frame) (i : Nat) : Byte := f.getD i 0#8

/-- `s[15:8]`. -/
def highByte (s : Seq) : Byte := s.extractLsb' 8 8

/-- `s[7:0]`. -/
def lowByte (s : Seq) : Byte := s.extractLsb' 0 8

/-- R401: the sum of the bytes, truncated to the low 8 bits. -/
def checksum (b : List Byte) : Byte := BitVec.ofNat 8 (b.map BitVec.toNat).sum

/-- R403: checksum, sequence number big-endian, flag, payload. -/
def encodeFrame (seq : Seq) (flag : PacketFlag) (payload : List Byte) : Frame :=
  checksum (highByte seq :: lowByte seq :: flag.code :: payload)
    :: highByte seq :: lowByte seq :: flag.code :: payload

/-- The five values of `decode` (R404). -/
structure FrameFields where
  expectedChecksum : Byte
  receivedChecksum : Byte
  sequenceNumber : Seq
  flag : Byte
  payload : List Byte
  deriving DecidableEq, Repr

/-- R404: split a frame of at least 4 bytes; `decode` is not defined below that. -/
def decodeFrame : List Byte → Option FrameFields
  | b0 :: b1 :: b2 :: b3 :: payload =>
    some { expectedChecksum := checksum (b1 :: b2 :: b3 :: payload)
           receivedChecksum := b0
           sequenceNumber := b1 ++ b2
           flag := b3
           payload := payload }
  | _ => none

/-- R405: the checksum test, `b[0] = checksum(b[1 .. N-1])`. -/
def passesChecksum (b : Frame) : Bool := decide (byteAt b 0 = checksum b.tail)

/-- The sequence number a frame carries: bytes 1 and 2, big-endian (20_memory R210). -/
def frameSeq (b : Frame) : Seq := byteAt b 1 ++ byteAt b 2

end Sys2Proof.Machine
end

