-- ==== Sys2Proof/Machine/Memory.lean ====
section
/-!
DEFINITION. The buffer memory: `TXBUF` and `CBUF` as cells at host byte addresses (20_memory R206, R207).
A cell is listed once something has written it; an unlisted byte reads as a free value (log entry 5).
-/
namespace Sys2Proof.Machine

/-- Host address of `TXBUF[0]` (R204). -/
def txbufBase : Nat := 0x400

/-- Host address of `CBUF[0]` (R204). -/
def cbufBase : Nat := 0x800

/-- Bytes of `TXBUF` (10_state R140). -/
def txbufSize : Nat := 996

/-- Bytes of `CBUF` (10_state R141). -/
def cbufSize : Nat := 1000

/-- The buffer bytes that exist (R206, R207): 996 of `TXBUF`, 1000 of `CBUF`. -/
def bufferByteExists (a : Nat) : Bool :=
  (decide (txbufBase ≤ a) && decide (a < txbufBase + txbufSize))
    || (decide (cbufBase ≤ a) && decide (a < cbufBase + cbufSize))

namespace Memory

/-- The byte last written at `a`, if any was. -/
def find? : Memory → Nat → Option Byte
  | [], _ => none
  | (b, v) :: m, a => if a = b then some v else find? m a

/-- Write a cell, keeping the addresses strictly rising. -/
def put : Memory → Nat → Byte → Memory
  | [], a, x => [(a, x)]
  | (b, v) :: m, a, x =>
    if a < b then (a, x) :: (b, v) :: m
    else if a = b then (a, x) :: m
    else (b, v) :: put m a x

/-- Read one buffer byte: a byte that does not exist reads 0 (R206, R207), one nothing has written reads as
a free value (93 U7, U10). -/
def load (m : Memory) (a : Nat) : Byte :=
  if bufferByteExists a then (find? m a).getD (Config.powerOnByte a) else 0#8

/-- Write one buffer byte: a write of a byte that does not exist is ignored (R206, R207). -/
def store (m : Memory) (a : Nat) (x : Byte) : Memory :=
  if bufferByteExists a then put m a x else m

/-- Write the bytes `xs` from address `a` up. -/
def storeBytes : Memory → Nat → List Byte → Memory
  | m, _, [] => m
  | m, a, x :: xs => storeBytes (store m a x) (a + 1) xs

/-- Write those of the bytes `xs` from address `a` up whose addresses are chosen. -/
def storeChosen (chosen : Nat → Bool) : Memory → Nat → List Byte → Memory
  | m, _, [] => m
  | m, a, x :: xs => storeChosen chosen (if chosen a then store m a x else m) (a + 1) xs

/-- Read `n` bytes from address `a` up. -/
def loadBytes (m : Memory) : Nat → Nat → List Byte
  | _, 0 => []
  | a, n + 1 => load m a :: loadBytes m (a + 1) n

/-- The word of four byte lanes at `a`, the lowest address in bits [7:0] (R206, R212). -/
def loadWord (m : Memory) (a : Nat) : Word :=
  load m (a + 3) ++ load m (a + 2) ++ load m (a + 1) ++ load m a

/-- Write the four byte lanes of `v` at `a`, bits [7:0] to the lowest address (R206, R212). -/
def storeWord (m : Memory) (a : Nat) (v : Word) : Memory :=
  storeBytes m a [v.extractLsb' 0 8, v.extractLsb' 8 8, v.extractLsb' 16 8, v.extractLsb' 24 8]

/-- Every address of `m` lies above `a`, and they rise strictly. -/
def risingFrom : Nat → Memory → Bool
  | _, [] => true
  | a, (b, _) :: m => decide (a < b) && risingFrom b m

/-- The canonical form: addresses strictly rising, only bytes that exist. -/
def wf (m : Memory) : Bool :=
  risingFrom 0 m && m.all (fun c => bufferByteExists c.1)

end Memory

end Sys2Proof.Machine
end

