-- ==== Sys2Proof/Machine/Operands.lean ====
section
/-!
DEFINITION. The memory operands of the commands (30_encoding R302): the payload in `TXBUF` and the frame in
`CBUF`, and the result words of DECODE (40_codec R420).
-/
namespace Sys2Proof.Machine

/-- The payload operand `TXBUF[0 .. LEN-1]` (30_encoding R302). -/
def payloadOperand (s : State) (len : BitVec 10) : List Byte :=
  Memory.loadBytes s.mem txbufBase len.toNat

/-- `CBUF[i]`. -/
def cbufByte (s : State) (i : Nat) : Byte := Memory.load s.mem (cbufBase + i)

/-- The frame operand of DECODE, `CBUF[0 .. CBUF_LEN-1]` (30_encoding R302). -/
def frameOperand (s : State) : Frame :=
  Memory.loadBytes s.mem cbufBase s.codec.cbufLen.toNat

/-- The word DECODE puts in `DEC_RESULT` (40_codec R420, 10_state R185):
FLAG in [31:24], MATCH in [16], EXP_CSUM in [15:8], RCV_CSUM in [7:0]. -/
def decResultWord (b : Frame) : Word :=
  byteAt b 3 ++ 0#7 ++ BitVec.ofBool (decide (byteAt b 0 = checksum b.tail)) ++ checksum b.tail ++ byteAt b 0

/-- The word DECODE puts in `DEC_SEQ` (40_codec R420, 10_state R186): PLEN in [25:16], SEQ in [15:0]. -/
def decSeqWord (b : Frame) : Word :=
  0#6 ++ BitVec.ofNat 10 (b.length - Config.hdrLen) ++ byteAt b 1 ++ byteAt b 2

end Sys2Proof.Machine
end

