-- ==== Sys2Proof/Machine/Ops.lean ====
section
/-!
DEFINITION. The named operations the commands and the events share: completion (the block's only trap
mechanism, 60_exceptions R806, R807; there is no trap return, R808), the steps of a SEND (41_arq_send R501 to
R511), the retransmission round (42_arq_events R631), and the codec results.
-/
namespace Sys2Proof.Machine

/-- The outcome type of the machine. -/
abbrev Result := Host.Outcome State Fault Refusal

/-- Go on with `f` from a next state; a stop stays a stop. -/
def Result.andThen (r : Result) (f : State → State) : Result :=
  match r with
  | .next s => .next (f s)
  | .fault e => .fault e
  | .refused e => .refused e

/-- `complete(code)` (60_exceptions R806): how every command ends, and how every error is taken. -/
def complete (code : ErrCode) (s : State) : State :=
  setPending (if code = errOk then doneBit else doneBit ||| errBit) { s with st := .idle, err := code }

/-- A CMD write while `BUSY` = 1 (43_host_bus R704). -/
def overrun (s : State) : State := setPending overrunBit s

/-- The write of a command word (43_host_bus R703, R704): an overrun while busy; else the first failing
check completes it; else the command is accepted. -/
def issue (refusal : Option ErrCode) (accept : State → State) (s : State) : State :=
  if s.busy then overrun s
  else
    match refusal with
    | some code => complete code s
    | none => accept s

/-- Start an attempt (42_arq_events R600). -/
def startAttempt (s : State) : State :=
  { s with st := .waitAck, timers := { s.timers with attemptCnt := 0#16 } }

/-- `push(f, cont)` (41_arq_send R510). -/
def push (f : Frame) (cont : TxCont) (s : State) : State :=
  { s with
    st := .tx
    sess := { s.sess with
      fifo := s.sess.fifo ++ [f]
      nextSeq := s.sess.nextSeq + 1#16
      lastSent := if s.sess.curFlag = .last then true else s.sess.lastSent }
    timers := { s.timers with
      sessionCnt := if s.sess.fifo = [] then 0#16 else s.timers.sessionCnt }
    emission := { queue := [f], index := 0, cont := cont } }

/-- Leaving the loop (41_arq_send R504). -/
def leaveLoop (s : State) : State :=
  if s.sess.curFlag = .last then complete errOk s else push s.sess.pending .finish s

/-- The loop condition (41_arq_send R503), signed on `IN_FLIGHT`. -/
def loopHolds (s : State) : Bool :=
  decide ((s.cfg.windowSize.toNat : Int) ≤ s.sess.inFlight.toInt)
    || (decide (s.sess.curFlag = .last) && decide (0 < s.sess.inFlight.toInt))

/-- The loop test (41_arq_send R503). -/
def loopTest (s : State) : State :=
  if loopHolds s then startAttempt s else leaveLoop s

/-- What follows when `TXQ` is empty (41_arq_send R511). -/
def continueAfterTx (s : State) : State :=
  match s.emission.cont with
  | .loop => loopTest s
  | .finish => complete errOk s

/-- Start emitting every frame of the FIFO, head to tail; a round with no frame goes on at once
(41_arq_send R511, R540; 42_arq_events R631). -/
def startRound (cont : TxCont) (s : State) : State :=
  let t : State :=
    { s with
      st := .retx
      counters := { s.counters with retx := s.counters.retx + 1#32 }
      emission := { queue := s.sess.fifo, index := 0, cont := cont } }
  if s.sess.fifo = [] then continueAfterTx t else t

/-- The retransmission round of an expiry: restart the timer, go back N (42_arq_events R631). -/
def retransmit (s : State) : State :=
  startRound .loop { s with timers := { s.timers with sessionCnt := 0#16 } }

/-- The registers a SEND loads at acceptance (41_arq_send R501). -/
def loadSend (flag : PacketFlag) (len : BitVec 10) (s : State) : State :=
  { s with
    err := errOk
    sess := { s.sess with
      curFlag := flag
      cfgLocked := true
      inFlight := BitVec.ofNat 18 s.fifoLen
      pending := encodeFrame s.sess.nextSeq flag (payloadOperand s len)
      oldestSeq := s.sess.nextSeq - (BitVec.ofNat 18 s.fifoLen).setWidth 16
      lastSent := false } }

/-- The immediate send of the LAST packet, else the loop test (41_arq_send R502). -/
def firstPush (s : State) : State :=
  if s.sess.curFlag = .last ∧ s.sess.inFlight.toInt < (s.cfg.windowSize.toNat : Int) then
    push s.sess.pending .loop s
  else loopTest s

/-- Acceptance of a SEND (41_arq_send R501, R502). -/
def acceptSend (flag : PacketFlag) (len : BitVec 10) (s : State) : State :=
  firstPush (loadSend flag len s)

/-- Acceptance of SENDALL (41_arq_send R540). -/
def acceptSendall (s : State) : State := startRound .finish { s with err := errOk }

/-- Acceptance of ENCODE (40_codec R410): the operands are read and the frame is built (20_memory R237). -/
def acceptEncode (flag : PacketFlag) (len : BitVec 10) (seq : Seq) (s : State) : State :=
  { s with
    st := .codec
    err := errOk
    codec := { s.codec with job := some (.encode (encodeFrame seq flag (payloadOperand s len))) } }

/-- Acceptance of DECODE (40_codec R420): the frame in `CBUF` is read and split (20_memory R237). -/
def acceptDecode (s : State) : State :=
  { s with
    st := .codec
    err := errOk
    codec := { s.codec with
      job := some (.decode (decResultWord (frameOperand s)) (decSeqWord (frameOperand s))) } }

/-- The results of the codec command in progress (40_codec R410, R420). -/
def writeCodecResults (s : State) : State :=
  match s.codec.job with
  | none => s
  | some (.encode f) =>
    { s with
      mem := Memory.storeBytes s.mem cbufBase f
      codec := { s.codec with cbufLen := BitVec.ofNat 10 f.length } }
  | some (.decode result seqWord) =>
    { s with codec := { s.codec with decResult := result, decSeq := seqWord } }

end Sys2Proof.Machine
end

