-- ==== Sys2Proof/Machine/Arq.lean ====
section
/-!
DEFINITION. The meanings of the session commands SEND.FIRST, SEND.MIDDLE, SEND.LAST and SENDALL
(41_arq_send R520, R530, R540).
-/
namespace Sys2Proof.Machine

/-- `SEND.FIRST len` (R520). -/
def execSendFirst (len : BitVec 10) (s : State) : Result :=
  .next (issue (sendCheck len s) (acceptSend .first len) s)

/-- `SEND.MIDDLE len` (R520). -/
def execSendMiddle (len : BitVec 10) (s : State) : Result :=
  .next (issue (sendCheck len s) (acceptSend .middle len) s)

/-- `SEND.LAST len` (R530). -/
def execSendLast (len : BitVec 10) (s : State) : Result :=
  .next (issue (sendCheck len s) (acceptSend .last len) s)

/-- `SENDALL` (R540): check 6 of 60_exceptions R802, then acceptance. -/
def execSendall (s : State) : Result :=
  .next (issue (failedCheck s) acceptSendall s)

end Sys2Proof.Machine
end

