-- ==== Sys2Proof/Machine/Codec.lean ====
section
/-!
DEFINITION. The meanings of the codec commands ENCODE and DECODE (40_codec R410, R420, R421).
-/
namespace Sys2Proof.Machine

/-- `ENCODE flag, len, seq` (R410): checks 3 and 4 of 60_exceptions R802, then acceptance. -/
def execEncode (flag : BitVec 2) (len : BitVec 10) (seq : Seq) (s : State) : Result :=
  match PacketFlag.ofField? flag with
  | none => .next (issue (some errFlag) id s)
  | some f => .next (issue (lengthCheck len) (acceptEncode f len seq) s)

/-- `DECODE` (R420, R421): check 5 of 60_exceptions R802, then acceptance. -/
def execDecode (s : State) : Result :=
  .next (issue (malformedCheck s) acceptDecode s)

end Sys2Proof.Machine
end

