-- ==== Sys2Proof/Machine/Dispatch.lean ====
section
/-!
DEFINITION. What writing a command's word to `CMD` does, one arm per command.
-/
namespace Sys2Proof.Machine

def exec (i : Instr) (s : State) : Host.Outcome State Fault Refusal :=
  match i with
  | .encode flag len seq => Sys2Proof.Machine.execEncode flag len seq s
  | .decode => Sys2Proof.Machine.execDecode s
  | .sendFirst len => Sys2Proof.Machine.execSendFirst len s
  | .sendMiddle len => Sys2Proof.Machine.execSendMiddle len s
  | .sendLast len => Sys2Proof.Machine.execSendLast len s
  | .sendall => Sys2Proof.Machine.execSendall s

end Sys2Proof.Machine
end

