-- ==== Sys2Proof/Machine/Bus.lean ====
section
/-!
DEFINITION. The host bus (43_host_bus.md): address decode, word reads, word writes and their side effects.
-/
namespace Sys2Proof.Machine

/-- `ID` (10_state R160). -/
def idValue : Word := 0x52554450#32

/-- `PARAM` (10_state R161): MAX_PAYLOAD in [31:16], WMAX in [15:0]. -/
def paramWord (s : State) : Word := BitVec.ofNat 16 Config.maxPayload ++ s.cfg.wmax

/-- The registers in address order, from 0x000 (20_memory R204). -/
def regMap : List Reg :=
  [.id, .param, .ctrl, .windowSize, .ackWait, .giveup, .cmd, .status, .irqEnable, .irqPending,
   .nextSeq, .oldestSeq, .inFlight, .fifoCount, .headSeq, .sessionCnt, .attemptCnt,
   .retxCount, .ackCount, .badCsumCount, .malformedCount, .truncCount, .cbufLen, .decResult, .decSeq]

/-- `hb_addr[11:2]` selects a word; `hb_addr[1:0]` is ignored (20_memory R203). -/
def wordIndex (addr : BitVec 12) : Nat := (addr.extractLsb' 2 10).toNat

/-- What an address selects (20_memory R204 to R207). -/
def target (addr : BitVec 12) : Target :=
  let k := wordIndex addr
  if k < 0x100 then
    match regMap[k]? with
    | some r => .reg r
    | none => .reserved
  else if k < 0x200 then .txbuf (k - 0x100)
  else if k < 0x300 then .cbuf (k - 0x200)
  else .reserved

/-- The current value of a register, reserved bits 0 (10_state R120 to R186). -/
def readReg (s : State) : Reg → Word
  | .id => idValue
  | .param => paramWord s
  | .ctrl => s.cfg.policy.code.setWidth 32
  | .windowSize => s.cfg.windowSize.setWidth 32
  | .ackWait => s.cfg.ackWait.setWidth 32
  | .giveup => s.cfg.giveup.setWidth 32
  | .cmd => 0#32
  | .status => s.statusWord
  | .irqEnable => s.irq.enable.setWidth 32
  | .irqPending => s.irq.pending.setWidth 32
  | .nextSeq => s.sess.nextSeq.setWidth 32
  | .oldestSeq => s.sess.oldestSeq.setWidth 32
  | .inFlight => s.sess.inFlight.signExtend 32
  | .fifoCount => (BitVec.ofNat 16 s.fifoLen).setWidth 32
  | .headSeq => s.headSeq.setWidth 32
  | .sessionCnt => s.timers.sessionCnt.setWidth 32
  | .attemptCnt => s.timers.attemptCnt.setWidth 32
  | .retxCount => s.counters.retx
  | .ackCount => s.counters.ack
  | .badCsumCount => s.counters.badCsum
  | .malformedCount => s.counters.malformed
  | .truncCount => s.counters.trunc
  | .cbufLen => s.codec.cbufLen.setWidth 32
  | .decResult => s.codec.decResult
  | .decSeq => s.codec.decSeq

/-- Host address of word `k` of the `TXBUF` window (20_memory R206). -/
def txbufWordAddr (k : Nat) : Nat := txbufBase + 4 * k

/-- Host address of word `k` of the `CBUF` window (20_memory R207). -/
def cbufWordAddr (k : Nat) : Nat := cbufBase + 4 * k

/-- The word a read returns while no codec command runs (43_host_bus R700). -/
def readTarget (s : State) : Target → Word
  | .reg r => readReg s r
  | .txbuf k => Memory.loadWord s.mem (txbufWordAddr k)
  | .cbuf k => Memory.loadWord s.mem (cbufWordAddr k)
  | .reserved => 0#32

/-- What a codec command in progress may show half done (43_host_bus R701). -/
def shownHalfDone : Target → Bool
  | .cbuf _ => true
  | .reg .cbufLen => true
  | .reg .decResult => true
  | .reg .decSeq => true
  | _ => false

/-- Per byte lane of `CBUF`, or per register: the value after the command or the one before it, a free
choice (43_host_bus R701, 93 U8). -/
def readHalfDone (n : Nat) (s : State) : Target → Word
  | .cbuf k =>
    let lane := fun j =>
      if Config.codecReadsNew n j then Memory.load (writeCodecResults s).mem (cbufWordAddr k + j)
      else Memory.load s.mem (cbufWordAddr k + j)
    lane 3 ++ lane 2 ++ lane 1 ++ lane 0
  | t => if Config.codecReadsNew n 0 then readTarget (writeCodecResults s) t else readTarget s t

/-- Whether a read of `t` draws a free value (R701). -/
def drawsFree (s : State) (t : Target) : Bool := decide (s.st = .codec) && shownHalfDone t

/-- The word a host read of `t` returns (R700, R701). -/
def readValue (s : State) (t : Target) : Word :=
  if drawsFree s t then readHalfDone s.freeCount s t else readTarget s t

/-- A host read (R700): only `hb_rdata` takes a value (20_memory R217). -/
def hostRead (addr : BitVec 12) (s : State) : State :=
  { s with
    rdata := readValue s (target addr)
    freeCount := if drawsFree s (target addr) then s.freeCount + 1 else s.freeCount }

/-- The error code of the check a word that spells no command fails (60_exceptions R802, checks 1 to 3). -/
def rejectCode : DecodeError → ErrCode
  | .opcode => errOpcode
  | .reserved => errReserved
  | .flag => errFlag

/-- A write of `w` to `CMD` (R703, R704): the word is decoded and run, or fails the check that rejects it. -/
def writeCmd (w : Word) (s : State) : Result :=
  match decodeWord w with
  | .command i => exec i s
  | .rejected why => .next (issue (some (rejectCode why)) id s)

/-- An ignored write (R705). -/
def ignoreWrite (s : State) : State := setPending wrIgnoredBit s

/-- `CTRL` (10_state R162, R705). -/
def writeCtrl (v : Word) (s : State) : State :=
  match GiveupPolicy.ofField? (v.extractLsb' 0 2) with
  | none => ignoreWrite s
  | some p => if s.busy then ignoreWrite s else { s with cfg := { s.cfg with policy := p } }

/-- `WINDOW_SIZE` (10_state R163, R705). -/
def writeWindowSize (v : Word) (s : State) : State :=
  let w : BitVec 16 := v.extractLsb' 0 16
  if s.busy ∨ s.sess.cfgLocked ∨ w = 0#16 ∨ s.cfg.wmax.toNat < w.toNat then ignoreWrite s
  else { s with cfg := { s.cfg with windowSize := w } }

/-- `ACK_WAIT` (10_state R164, R705). -/
def writeAckWait (v : Word) (s : State) : State :=
  let w : BitVec 16 := v.extractLsb' 0 16
  if s.busy ∨ w = 0#16 then ignoreWrite s else { s with cfg := { s.cfg with ackWait := w } }

/-- `GIVEUP` (10_state R165, R705). -/
def writeGiveup (v : Word) (s : State) : State :=
  if s.busy then ignoreWrite s else { s with cfg := { s.cfg with giveup := v.extractLsb' 0 16 } }

/-- `CBUF_LEN` (10_state R142, R705). -/
def writeCbufLen (v : Word) (s : State) : State :=
  if s.busy then ignoreWrite s else { s with codec := { s.codec with cbufLen := v.extractLsb' 0 10 } }

/-- `IRQ_ENABLE`, in any state (10_state R168). -/
def writeIrqEnable (v : Word) (s : State) : State :=
  { s with irq := { s.irq with enable := v.extractLsb' 0 5 } }

/-- `IRQ_PENDING`: clear each bit written as 1 (43_host_bus R706). -/
def writeIrqPending (v : Word) (s : State) : State :=
  { s with irq := { s.irq with pending := s.irq.pending &&& ~~~(v.extractLsb' 0 5) } }

/-- A word of a buffer window whose host address is `a` (R702, R705). -/
def writeBuffer (a : Nat) (v : Word) (s : State) : State :=
  if s.busy then ignoreWrite s else { s with mem := Memory.storeWord s.mem a v }

/-- A write to a register other than `CMD` (R702); RO registers drop it (20_memory R205). -/
def writeReg (r : Reg) (v : Word) (s : State) : State :=
  match r with
  | .ctrl => writeCtrl v s
  | .windowSize => writeWindowSize v s
  | .ackWait => writeAckWait v s
  | .giveup => writeGiveup v s
  | .cbufLen => writeCbufLen v s
  | .irqEnable => writeIrqEnable v s
  | .irqPending => writeIrqPending v s
  | _ => s

/-- A host write (R702). -/
def hostWrite (addr : BitVec 12) (v : Word) (s : State) : Result :=
  match target addr with
  | .reg .cmd => writeCmd v s
  | .reg r => .next (writeReg r v s)
  | .txbuf k => .next (writeBuffer (txbufWordAddr k) v s)
  | .cbuf k => .next (writeBuffer (cbufWordAddr k) v s)
  | .reserved => .next s

/-- `hb_rdata` takes a free value (R700: both strobes; 93 U11). -/
def freeRdata (s : State) : State :=
  { s with rdata := Config.bothStrobesData s.freeCount, freeCount := s.freeCount + 1 }

/-- One host bus cycle (R700, R702). -/
def hostAccess (a : HostAccess) (s : State) : Result :=
  match a with
  | .read addr => .next (hostRead addr s)
  | .write addr v => hostWrite addr v s
  | .readWrite addr v => (hostWrite addr v s).andThen freeRdata

/-- The address of `CMD` (20_memory R204). -/
def cmdAddr : BitVec 12 := 0x018#12

end Sys2Proof.Machine
end

