-- ==== Sys2Proof/Machine/Events.lean ====
section
/-!
DEFINITION. The steps of the environment agents and the sequencer's own step: TX transfers (20_memory R220,
41_arq_send R511), RX transfers and the wait loop (42_arq_events.md), ticks, completion of a codec command,
and reset (70_reset R900).
-/
namespace Sys2Proof.Machine

/-- The TX sink takes one byte; the byte with `tx_last` = 1 ends a datagram (20_memory R220, R221). -/
def TxSink.take (k : TxSink) (b : Byte) (isLast : Bool) : TxSink :=
  if isLast then { frames := k.frames ++ [k.part ++ [b]], part := [] }
  else { k with part := k.part ++ [b] }

/-- The head frame of `TXQ` has been emitted: remove it, and go on when `TXQ` is empty (41_arq_send R511). -/
def frameEmitted (s : State) : State :=
  let t := { s with emission := { s.emission with queue := s.emission.queue.tail, index := 0 } }
  if s.emission.queue.tail = [] then continueAfterTx t else t

/-- `tx_ready` = 1 for one byte (20_memory R220): the byte transfers if `tx_valid` = 1. -/
def txByteStep (s : State) : State :=
  match s.txOffer with
  | none => s
  | some (b, isLast) =>
    let t := { s with sink := s.sink.take b isLast }
    if isLast then frameEmitted t
    else { t with emission := { t.emission with index := t.emission.index + 1 } }

/-- The TX sink accepts the whole head frame, or all that is left of it (20_memory R220, 41_arq_send R511). -/
def txFrameStep (s : State) : State :=
  if s.emitting then
    match s.emission.queue with
    | [] => s
    | f :: _ =>
      frameEmitted { s with
        sink := { frames := s.sink.frames ++ [s.sink.part ++ f.drop s.emission.index], part := [] } }
  else s

/-- Cumulative-ACK count: `(s - OLDEST_SEQ + 1) mod 65536` (42_arq_events R621). -/
def ackCountOf (acked oldest : Seq) : Seq := acked - oldest + 1#16

/-- Count, drop, and advance (42_arq_events R621), then restart the timer if frames remain (R622). -/
def dropAcked (acked : Seq) (s : State) : State :=
  let c := ackCountOf acked s.sess.oldestSeq
  let left := s.sess.fifo.drop c.toNat
  { s with
    sess := { s.sess with
      fifo := left
      inFlight := s.sess.inFlight - c.setWidth 18
      oldestSeq := s.sess.oldestSeq + c }
    timers := { s.timers with sessionCnt := if left = [] then s.timers.sessionCnt else 0#16 } }

/-- The deferred LAST packet, else the loop test (42_arq_events R623, R624). -/
def afterAck (s : State) : State :=
  if s.sess.curFlag = .last ∧ s.sess.lastSent = false then push s.sess.pending .loop s
  else loopTest s

/-- A valid ACK (42_arq_events R620): its flag byte and payload are ignored. -/
def acceptAck (s : State) : State :=
  afterAck (dropAcked s.rxr.seq
    { s with counters := { s.counters with ack := s.counters.ack + 1#32 } })

/-- End of an RX frame (42_arq_events R603, R604, R605). -/
def endRxFrame (s : State) : State :=
  let t := { s with rxr := { s.rxr with active := false } }
  if s.rxr.len < Config.hdrLen then
    startAttempt { t with counters := { t.counters with malformed := t.counters.malformed + 1#32 } }
  else if s.rxr.b0 ≠ s.rxr.sum then
    startAttempt { t with counters := { t.counters with badCsum := t.counters.badCsum + 1#32 } }
  else acceptAck t

/-- The RX registers after the byte `x` (42_arq_events R602). -/
def RxRegs.take (r : RxRegs) (x : Byte) : RxRegs :=
  { active := r.active
    len := if r.len < 1001 then r.len + 1 else r.len
    b0 := if r.len = 0 then x else r.b0
    seq := if r.len = 1 then x ++ r.seq.extractLsb' 0 8
           else if r.len = 2 then r.seq.extractLsb' 8 8 ++ x
           else r.seq
    sum := if 1 ≤ r.len ∧ r.len ≤ 999 then r.sum + x else r.sum }

/-- The first byte of a frame opens it (42_arq_events R602). -/
def openRxFrame (s : State) : State :=
  if s.st = .waitAck then
    { s with st := .rx, rxr := { s.rxr with active := true, len := 0, sum := 0#8 } }
  else s

/-- Receiving one RX byte in WAIT_ACK or RX (42_arq_events R602). -/
def receiveByte (x : Byte) (isLast : Bool) (s : State) : State :=
  let o := openRxFrame s
  let t := { o with
    rxr := o.rxr.take x
    counters := { o.counters with
      trunc := if o.rxr.len = 1000 then o.counters.trunc + 1#32 else o.counters.trunc } }
  if isLast then endRxFrame t else t

/-- Receiving the bytes of one frame, the last with `rx_last` = 1 (20_memory R224). -/
def receiveBytes : Frame → State → State
  | [], s => s
  | [x], s => receiveByte x true s
  | x :: y :: tail, s => receiveBytes (y :: tail) (receiveByte x false s)

/-- What the RX source offers: `rx_data`, `rx_last`, and the source once the byte has transferred
(20_memory R222, R223). -/
def RxSource.offer (r : RxSource) : Option (Byte × Bool × RxSource) :=
  match r.rest with
  | x :: tail => some (x, tail.isEmpty, { r with rest := tail })
  | [] =>
    match r.waiting with
    | (x :: tail) :: later => some (x, tail.isEmpty, { rest := tail, waiting := later })
    | _ => none

/-- `rx_valid` = 1 for one byte (20_memory R222): it transfers if `rx_ready` = 1. -/
def rxByteStep (s : State) : State :=
  if s.rxReady then
    match s.source.offer with
    | none => s
    | some (x, isLast, source) => receiveByte x isLast { s with source := source }
  else s

/-- One whole RX frame in one step, enabled in WAIT_ACK (20_memory R224). -/
def rxFrameStep (s : State) : State :=
  if s.st = .waitAck ∧ s.source.rest = [] then
    match s.source.waiting with
    | [] => s
    | f :: later => receiveBytes f { s with source := { rest := [], waiting := later } }
  else s

/-- A datagram reaches the transport and waits there, in order (20_memory R223); the transport never
delivers a zero-length one (10_state R103). -/
def rxDatagramStep (f : Frame) (s : State) : State :=
  if f = [] then s else { s with source := { s.source with waiting := s.source.waiting ++ [f] } }

/-- FATAL giveup (42_arq_events R641). -/
def giveupFatal (s : State) : State :=
  complete errGiveup { s with sess := { s.sess with failed := true } }

/-- DROP giveup: a fresh session takes the place of this one (42_arq_events R642). -/
def giveupDrop (s : State) : State :=
  complete errGiveupDropped
    { s with
      sess := { s.sess with
        fifo := []
        nextSeq := 0#16
        oldestSeq := 0#16
        inFlight := 0#18
        lastSent := false
        cfgLocked := false }
      timers := { s.timers with sessionCnt := 0#16 } }

/-- Giveup under the policy of `CTRL` (42_arq_events R640, R643). -/
def giveUp (s : State) : State :=
  let t := setPending giveupBit s
  match s.cfg.policy with
  | .fatal => giveupFatal t
  | .drop => giveupDrop t
  | .retry => retransmit t

/-- An expired attempt: retransmission while `SESSION_CNT < GIVEUP`, strictly, else giveup (42_arq_events R630). -/
def expire (s : State) : State :=
  if s.timers.sessionCnt.toNat < s.cfg.giveup.toNat then retransmit s else giveUp s

/-- The timers after a tick (42_arq_events R610). -/
def tickTimers (s : State) : State :=
  { s with timers :=
      { sessionCnt := satSucc s.timers.sessionCnt
        attemptCnt := if s.rxReady then satSucc s.timers.attemptCnt else s.timers.attemptCnt } }

/-- The expiry condition (42_arq_events R611). -/
def attemptExpired (s : State) : Bool :=
  decide (s.st = .waitAck) && decide (s.cfg.ackWait.toNat ≤ s.timers.attemptCnt.toNat)

/-- A tick (42_arq_events R610, R611). -/
def tickStep (s : State) : State :=
  if attemptExpired (tickTimers s) then expire (tickTimers s) else tickTimers s

/-- The sequencer finishes the codec command in progress (40_codec R410, R420). -/
def codecStep (s : State) : State :=
  if s.st = .codec then
    complete errOk
      { writeCodecResults s with codec := { (writeCodecResults s).codec with job := none } }
  else s

/-- The frame of an ENCODE in progress, if one is (40_codec R410). -/
def State.encoding? (s : State) : Option Frame :=
  if s.st = .codec then
    match s.codec.job with
    | some (.encode f) => some f
    | _ => none
  else none

/-- The buffers after a reset, which does not change them (10_state R140, R141). DESIGN CHOICE, log entry 22: a
reset that abandons an ENCODE leaves each byte of its frame in `CBUF` written or not, a free choice, since the
block may build the frame in place (92_eei_decisions D40) and 93 U10 leaves the content open. -/
def abandonedMem (s : State) : Memory :=
  match s.encoding? with
  | none => s.mem
  | some f => Memory.storeChosen (Config.abandonedByteWritten s.freeCount) s.mem cbufBase f

/-- Reset (70_reset R900, R902, R903): every state element at its reset value; the hardwired parameter as it was
and the buffers as `abandonedMem` says; the agents drop the remnant of a frame; the steps still to come stay to
come. -/
def resetBlock (s : State) : State :=
  { State.reset with
    cfg := { State.reset.cfg with wmax := s.cfg.wmax }
    mem := abandonedMem s
    rdata := s.rdata
    sink := { s.sink with part := [] }
    source := { s.source with rest := [] }
    inputs := s.inputs
    freeCount := if s.encoding?.isSome then s.freeCount + 1 else s.freeCount }

end Sys2Proof.Machine
end

