-- ==== Sys2Proof/Machine/Agents.lean ====
section
/-!
DEFINITION. One event of State.inputs run on the machine, the order of simultaneous events (60_exceptions
R823), and how a command word is placed as the host's next access.
-/
namespace Sys2Proof.Machine

/-- The host's part of a cycle. -/
def cycleHost (access : Option HostAccess) (s : State) : Result :=
  match access with
  | none => .next s
  | some a => hostAccess a s

/-- The sequencer's part of a cycle that began in state `st0`: at most one own step or byte transfer. A byte
transfers only where the port stood valid and ready in the cycle (log entry 12). -/
def cycleSequencer (st0 : SeqState) (c : Cycle) (s : State) : State :=
  match st0 with
  | .codec => if c.codecGo then codecStep s else s
  | .tx => if c.txReady then txByteStep s else s
  | .retx => if c.txReady then txByteStep s else s
  | .waitAck => if c.rxValid then rxByteStep s else s
  | .rx => if c.rxValid then rxByteStep s else s
  | .idle => s
  | .code6 => s
  | .code7 => s

/-- The order of R823: reset alone, else host access, sequencer, tick. -/
def cycleStep (c : Cycle) (s : State) : Result :=
  if c.rst then .next (resetBlock s)
  else
    (cycleHost c.host s).andThen fun t =>
      if c.tick then tickStep (cycleSequencer s.st c t) else cycleSequencer s.st c t

/-- What an event does to the machine. -/
def eventEffect (e : Event) (s : State) : Result :=
  match e with
  | .reset => .next (resetBlock s)
  | .host a => hostAccess a s
  | .codecDone => .next (codecStep s)
  | .txByte => .next (txByteStep s)
  | .txFrame => .next (txFrameStep s)
  | .rxDatagram f => .next (rxDatagramStep f s)
  | .rxByte => .next (rxByteStep s)
  | .rxFrame => .next (rxFrameStep s)
  | .tick => .next (tickStep s)
  | .cycle c => cycleStep c s

/-- An event that asserts `rst`. -/
def Event.isReset : Event → Bool
  | .reset => true
  | .cycle c => c.rst
  | _ => false

/-- An event in a fault state stops the machine, but for a reset (93 U15, U16; log entry 10). -/
def runEvent (e : Event) (s : State) : Result :=
  if e.isReset then eventEffect e s
  else
    match s.illegal? with
    | some f => .fault f
    | none => eventEffect e s

/-- With no event to come only the sequencer can move: it finishes a codec command, and otherwise the block
waits (42_arq_events R601, 60_exceptions R853; log entry 3). -/
def runAlone (s : State) : Result :=
  match s.illegal? with
  | some f => .fault f
  | none => .next (codecStep s)

/-- The host writes the word of the row's bits to `CMD` next (43_host_bus R703). -/
def placeCommand (s : State) (nbits w : Nat) : State :=
  { s with inputs := .host (.write cmdAddr (tableWord nbits w)) :: s.inputs }

end Sys2Proof.Machine
end

