-- ==== Sys2Proof/Machine/Step.lean ====
section
/-!
DEFINITION. One step of the machine: the next agent step of State.inputs, or the sequencer alone.
-/
namespace Sys2Proof.Machine

/-- One step (10_state R102). -/
def step (s : State) : Host.Outcome State Fault Refusal :=
  match s.inputs with
  | [] => runAlone s
  | e :: rest => runEvent e { s with inputs := rest }

/-- The command word as the host's next write to `CMD`, which is where a command comes from (20_memory R237;
log entry 2). -/
def State.withFetchWord (s : State) (nbits w : Nat) : State := placeCommand s nbits w

end Sys2Proof.Machine
end

