-- ==== Sys2Proof/Safety.lean ====
section
/-!
DEFINITION. What counts as a sound state: the invariants of 10_state R131 to R133 and the legal values of the
registers, in the form a step keeps, and the transitions of `ST` (R118).
-/
namespace Sys2Proof.Machine

/-- The state every step of the spec leaves: no unused `ST` code, no unused error code (93 U15, U16). -/
def CodesLegal (s : State) : Prop := s.illegal? = none

/-- The legal values of the configuration registers (00_scope R9, 10_state R163, R164). -/
structure ConfigLegal (s : State) : Prop where
  wmaxLow : 1 ≤ s.cfg.wmax.toNat
  wmaxHigh : s.cfg.wmax.toNat ≤ 32767
  windowLow : 1 ≤ s.cfg.windowSize.toNat
  windowHigh : s.cfg.windowSize.toNat ≤ s.cfg.wmax.toNat
  ackWaitLow : 1 ≤ s.cfg.ackWait.toNat

/-- A frame as `encode` builds it: 4 to 1000 bytes that pass the checksum test, with a flag byte of 0, 1 or 2
(30_encoding R310, R313; 40_codec R403, R405). -/
structure FrameSound (f : Frame) : Prop where
  low : Config.hdrLen ≤ f.length
  high : f.length ≤ Config.maxFrame
  sum : passesChecksum f = true
  flag : (byteAt f 3).toNat ≤ 2

/-- `IN_FLIGHT` as a number. -/
def State.flight (s : State) : Int := s.sess.inFlight.toInt

/-- `W` as a number. -/
def State.window (s : State) : Nat := s.cfg.windowSize.toNat

/-- The FIFO order invariant (10_state R131). -/
def FifoOrder (s : State) : Prop :=
  ∀ (i : Nat) (f : Frame), s.sess.fifo[i]? = some f → frameSeq f = s.headSeq + BitVec.ofNat 16 i

/-- Inside the wait loop: an attempt, or the round between two attempts. -/
def State.looping (s : State) : Prop :=
  s.st = .waitAck ∨ s.st = .rx ∨ (s.st = .retx ∧ s.emission.cont = .loop)

/-- A SEND whose LAST packet has been pushed (10_state R132, R133). -/
structure LastPushed (s : State) : Prop where
  isLast : s.sess.curFlag = .last
  sent : s.sess.lastSent = true
  atLeast : s.flight ≤ s.fifoLen
  atMost : (s.fifoLen : Int) ≤ max 0 s.flight + 1

/-- A SEND that has pushed nothing yet (10_state R133, 41_arq_send R510). -/
structure NotPushed (s : State) : Prop where
  notSent : s.sess.lastSent = false
  count : (s.fifoLen : Int) = max 0 s.flight
  pendingSound : FrameSound s.sess.pending
  pendingSeq : frameSeq s.sess.pending = s.sess.nextSeq

/-- The session (10_state R116, R121, R130 to R133; 41_arq_send R503, R551, R552). -/
structure SessionInv (s : State) : Prop where
  order : FifoOrder s
  sound : ∀ f ∈ s.sess.fifo, FrameSound f
  flightLow : -65534 ≤ s.flight
  flightHigh : s.flight ≤ s.window
  bound : s.fifoLen ≤ s.window + 1
  unlocked : s.sess.cfgLocked = false → s.sess.fifo = [] ∧ s.sess.inFlight = 0#18
  resting : s.st = .idle ∨ s.st = .codec → s.sess.failed = false → s.fifoLen ≤ s.window
  live : s.sess.failed = true → s.st = .idle ∨ s.st = .codec
  locked : s.looping ∨ s.st = .tx → s.sess.cfgLocked = true
  loopOn : s.looping → loopHolds s = true
  loopCount : s.looping → LastPushed s ∨ NotPushed s
  txLoop : s.st = .tx → s.emission.cont = .loop → LastPushed s
  txFinish : s.st = .tx → s.emission.cont = .finish → s.fifoLen ≤ s.window
  retxFinish : s.st = .retx → s.emission.cont = .finish → s.fifoLen ≤ s.window

/-- The TX port and its sink: the frames still to emit are the newest of the FIFO, and the sink holds exactly
the bytes of the head frame already taken (10_state R117, 20_memory R220, R221). -/
structure EmissionInv (s : State) : Prop where
  quiet : s.emitting = false → s.emission.queue = [] ∧ s.sink.part = []
  suffix : s.emitting = true → s.emission.queue <:+ s.sess.fifo
  head : s.emitting = true → ∃ f later, s.emission.queue = f :: later ∧ s.emission.index < f.length
    ∧ s.sink.part = f.take s.emission.index

/-- The RX port and its source (10_state R103, R190; 20_memory R222). -/
structure RxInv (s : State) : Prop where
  active : s.rxr.active = decide (s.st = .rx)
  started : s.st = .rx → 1 ≤ s.rxr.len ∧ s.rxr.len ≤ 1001
  source : s.st = .rx ↔ s.source.rest ≠ []
  nonempty : ∀ f ∈ s.source.waiting, f ≠ []

/-- A codec command in progress (40_codec R410, R420). -/
structure CodecInv (s : State) : Prop where
  job : s.st = .codec ↔ s.codec.job ≠ none
  frame : ∀ f, s.codec.job = some (.encode f) → FrameSound f

/-- The invariant every step keeps. -/
structure Inv (s : State) : Prop where
  codes : CodesLegal s
  config : ConfigLegal s
  memory : Memory.wf s.mem = true
  session : SessionInv s
  emission : EmissionInv s
  rx : RxInv s
  codec : CodecInv s

/-- The transitions of `ST` that 10_state R118 lists, reset apart. -/
def stMoves : SeqState → List SeqState
  | .idle => [.idle, .codec, .tx, .waitAck, .retx]
  | .codec => [.idle]
  | .tx => [.idle, .waitAck]
  | .retx => [.waitAck, .idle]
  | .waitAck => [.rx, .retx, .idle]
  | .rx => [.rx, .waitAck, .tx, .idle]
  | .code6 => []
  | .code7 => []

/-! ### The vocabulary of the statements -/

/-- The next agent step of `s` is `e`, the later ones are `rest`, and `s` is no fault state. -/
def State.facing (s : State) (e : Event) (rest : List Event) : Prop := s.inputs = e :: rest ∧ CodesLegal s

/-- `s` with the steps still to come replaced by `rest`. -/
def State.popped (s : State) (rest : List Event) : State := { s with inputs := rest }

/-- The first `n` bytes of `TXBUF`, each read at its host address (20_memory R206). -/
def txbufBytes (s : State) (n : Nat) : List Byte := (List.range n).map fun i => Memory.load s.mem (0x400 + i)

/-- The first `n` bytes of `CBUF`, each read at its host address (20_memory R207). -/
def cbufBytes (s : State) (n : Nat) : List Byte := (List.range n).map fun i => Memory.load s.mem (0x800 + i)

/-- The packet a SEND of `n` payload bytes builds (41_arq_send R501). -/
def sentFrame (s : State) (g : PacketFlag) (n : Nat) : Frame := encodeFrame s.sess.nextSeq g (txbufBytes s n)

/-- `s` with pending bits set (10_state R169). -/
def State.raising (s : State) (bits : BitVec 5) : State :=
  { s with irq := { s.irq with pending := s.irq.pending ||| bits } }

/-- `s` after a command is refused or ended with an error: `complete(code)` with `code` not 0 (60_exceptions R806). -/
def State.endedWith (s : State) (code : BitVec 4) : State :=
  { s with st := .idle, err := code, irq := { s.irq with pending := s.irq.pending ||| 0x03#5 } }

/-- `s` after a command completes normally: `complete(OK)` (60_exceptions R806). -/
def State.endedOk (s : State) : State :=
  { s with st := .idle, err := 0#4, irq := { s.irq with pending := s.irq.pending ||| 0x01#5 } }

/-- `s` at the start of an attempt (42_arq_events R600). -/
def State.attempting (s : State) : State :=
  { s with st := .waitAck, timers := { s.timers with attemptCnt := 0#16 } }

/-- The code of the first check of 60_exceptions R802 that the word fails; 0 when it passes them all. -/
def firstFailingCheck (w : Word) (s : State) : Nat :=
  let op := w.toNat % 16
  let flag := w.toNat / 16 % 4
  let len := w.toNat / 64 % 1024
  let seq := w.toNat / 65536
  let n := s.codec.cbufLen.toNat
  if ¬ (op = 1 ∨ op = 2 ∨ op = 3 ∨ op = 4) then 1
  else if ((op = 2 ∨ op = 4) ∧ w.toNat / 16 ≠ 0) ∨ (op = 3 ∧ seq ≠ 0) then 2
  else if (op = 1 ∨ op = 3) ∧ flag = 3 then 3
  else if (op = 1 ∨ op = 3) ∧ 996 < len then 4
  else if op = 2 ∧ (n < 4 ∨ 1000 < n) then 5
  else if (op = 3 ∨ op = 4) ∧ s.sess.failed = true then 6
  else 0

/-- The writes 43_host_bus R705 ignores. -/
def writeIgnored (t : Target) (v : Word) (s : State) : Prop :=
  match t with
  | .reg .ctrl => s.busy = true ∨ v.toNat % 4 = 3
  | .reg .windowSize =>
    s.busy = true ∨ s.sess.cfgLocked = true ∨ v.toNat % 65536 = 0 ∨ s.cfg.wmax.toNat < v.toNat % 65536
  | .reg .ackWait => s.busy = true ∨ v.toNat % 65536 = 0
  | .reg .giveup => s.busy = true
  | .reg .cbufLen => s.busy = true
  | .txbuf _ => s.busy = true
  | .cbuf _ => s.busy = true
  | _ => False

/-- The number of each sequencer state in `STATUS[10:8]`, from the table of 10_state R110. -/
def stNumber : SeqState → Nat
  | .idle => 0
  | .codec => 1
  | .tx => 2
  | .retx => 3
  | .waitAck => 4
  | .rx => 5
  | .code6 => 6
  | .code7 => 7

/-- The number of each giveup policy in `CTRL[1:0]`, from the table of 10_state R162. -/
def policyNumber : GiveupPolicy → Nat
  | .fatal => 0
  | .drop => 1
  | .retry => 2

/-- A write cycle of the host: `hb_we` = 1, whatever `hb_re` (43_host_bus R702). -/
def HostAccess.writes (h : HostAccess) (a : BitVec 12) (v : Word) : Prop := h = .write a v ∨ h = .readWrite a v

/-- The step with the write cycle `h` answers `t`; with both strobes `hb_rdata` may hold any word besides
(43_host_bus R700; log entry 7: `rdata` and `freeCount` are the model's). -/
def answersWrite (h : HostAccess) (r : Result) (t : State) : Prop :=
  match h with
  | .readWrite _ _ => ∃ x n, r = .next { t with rdata := x, freeCount := n }
  | _ => r = .next t

/-- The loop condition of 41_arq_send R503 for a flag, a window and an in-flight count. -/
def loopCondition (g : PacketFlag) (window : Nat) (flight : Int) : Prop :=
  (window : Int) ≤ flight ∨ (g = .last ∧ 0 < flight)

/-- Every other cell of `m'` reads as in `m`, but for the bytes `a` to `a + n - 1`. -/
def sameOutside (m m' : Memory) (a n : Nat) : Prop :=
  ∀ b, b < a ∨ a + n ≤ b → Memory.load m' b = Memory.load m b

end Sys2Proof.Machine
end

