-- ==== Sys2Proof/Certificates/Slice0/Obligations.lean ====
section
/-!
DEFINITION. The statements for the provers. Each says which rule of spec/ it formalises; what each claims in
words stands in OBLIGATIONS.json.
-/
open Sys2Proof Sys2Proof.Machine

/-! ### Encoding -/

/-- 30_encoding R301, R304: no operand bit is dropped or moved. -/
def Obligations.DecodeOfEncodeIsTheCommand : Prop :=
  ∀ i : Instr, decodeWord (encodeWord i) = .command i

/-- 30_encoding R301, R304: a word that spells a command is that command's only spelling. -/
def Obligations.EncodeOfDecodeIsTheWord : Prop :=
  ∀ (w : Word) (i : Instr), decodeWord w = .command i → encodeWord i = w

/-- 30_encoding R304: a word spells a command exactly when it matches a row under the row's mask. -/
def Obligations.WordsSpellCommandsByMask : Prop :=
  ∀ w : Word,
    (∀ i, decodeWord w = .command i → w &&& rowMask i = rowMatch i)
    ∧ (∀ i, w &&& rowMask i = rowMatch i → ∃ j, decodeWord w = .command j ∧ rowMatch j = rowMatch i)

/-- 30_encoding R304, R320: words written out from the field table decode to their commands. -/
def Obligations.SampleWordsDecode : Prop :=
  decodeWord 0x123400D1#32 = .command (.encode 1#2 3#10 0x1234#16)
  ∧ decodeWord 0x00000002#32 = .command .decode
  ∧ decodeWord 0x00000043#32 = .command (.sendFirst 1#10)
  ∧ decodeWord 0x00000053#32 = .command (.sendMiddle 1#10)
  ∧ decodeWord 0x00000063#32 = .command (.sendLast 1#10)
  ∧ decodeWord 0x00000004#32 = .command .sendall

/-! ### The codec functions -/

/-- 40_codec R401: the sum of the bytes mod 256, 0 on the empty string; R406: an 8-bit accumulator that wraps
after every byte gives the same value. -/
def Obligations.ChecksumIsByteSumMod256 : Prop :=
  checksum [] = 0#8
  ∧ ∀ b : List Byte, (checksum b).toNat = (b.map BitVec.toNat).sum % 256
      ∧ checksum b = b.foldl (fun acc x => acc + x) 0#8

/-- 40_codec R403: the frame, byte by byte. -/
def Obligations.EncodeFrameLayout : Prop :=
  ∀ (seq : Seq) (flag : PacketFlag) (p : List Byte),
    (encodeFrame seq flag p).length = 4 + p.length
    ∧ (byteAt (encodeFrame seq flag p) 0).toNat = (((encodeFrame seq flag p).tail).map BitVec.toNat).sum % 256
    ∧ (byteAt (encodeFrame seq flag p) 1).toNat = seq.toNat / 256
    ∧ (byteAt (encodeFrame seq flag p) 2).toNat = seq.toNat % 256
    ∧ (byteAt (encodeFrame seq flag p) 3).toNat
        = (match flag with | .first => 0 | .middle => 1 | .last => 2)
    ∧ (encodeFrame seq flag p).drop 4 = p

/-- 40_codec R404: the five values of a frame of at least 4 bytes; a shorter one has none. -/
def Obligations.DecodeFrameSplits : Prop :=
  ∀ b : List Byte,
    (b.length < 4 → decodeFrame b = none)
    ∧ (4 ≤ b.length →
        ∃ d, decodeFrame b = some d
          ∧ d.expectedChecksum.toNat = ((b.drop 1).map BitVec.toNat).sum % 256
          ∧ d.receivedChecksum = byteAt b 0
          ∧ d.sequenceNumber.toNat = (byteAt b 1).toNat * 256 + (byteAt b 2).toNat
          ∧ d.flag = byteAt b 3
          ∧ d.payload = b.drop 4)

/-- 40_codec R407: decode of encode recovers the triple, and the two checksums agree. -/
def Obligations.FrameRoundTrip : Prop :=
  ∀ (seq : Seq) (flag : PacketFlag) (p : List Byte), p.length ≤ 996 →
    ∃ d, decodeFrame (encodeFrame seq flag p) = some d
      ∧ d.sequenceNumber = seq ∧ d.flag = flag.code ∧ d.payload = p
      ∧ d.receivedChecksum = d.expectedChecksum

/-- 40_codec R408: flipping any one bit of a frame that passes the checksum test makes it fail. -/
def Obligations.SingleBitFlipIsDetected : Prop :=
  ∀ (f : Frame) (i k : Nat), 4 ≤ f.length → passesChecksum f = true → i < f.length → k < 8 →
    passesChecksum (f.set i (byteAt f i ^^^ (1#8 <<< k))) = false

/-- 40_codec R409: a change of the covered bytes that keeps their sum mod 256 is not detected, and any
rearrangement of them keeps it. -/
def Obligations.ReorderingIsNotDetected : Prop :=
  ∀ (b : Byte) (covered covered' : List Byte), passesChecksum (b :: covered) = true →
    ((covered.map BitVec.toNat).sum % 256 = (covered'.map BitVec.toNat).sum % 256 →
      passesChecksum (b :: covered') = true)
    ∧ (covered.Perm covered' → passesChecksum (b :: covered') = true)

/-! ### Writing a command -/

/-- 43_host_bus R703: a step whose next event is a CMD write runs the decoded command on the state without that
event (log entry 1: the events of the agents stand in `inputs`); R700: with both strobes it is the same write, with
any word on `hb_rdata`. -/
def Obligations.StepRunsTheDecodedCommand : Prop :=
  ∀ (s : State) (a : BitVec 12) (w : Word) (i : Instr) (rest : List Event),
    target a = .reg .cmd → decodeWord w = .command i →
    (s.facing (.host (.write a w)) rest → step s = exec i (s.popped rest))
    ∧ (s.facing (.host (.readWrite a w)) rest →
        ∃ t, exec i (s.popped rest) = .next t ∧ answersWrite (.readWrite a w) (step s) t)

/-- 43_host_bus R704: a CMD write while busy only sets OVERRUN, whatever the word; R700: with both strobes too, with
any word on `hb_rdata`. -/
def Obligations.BusyCommandWriteIsOverrun : Prop :=
  ∀ (s : State) (h : HostAccess) (a : BitVec 12) (w : Word) (rest : List Event),
    s.facing (.host h) rest → h.writes a w → target a = .reg .cmd → s.busy = true →
    answersWrite h (step s) ((s.popped rest).raising 0x08#5)

/-- 60_exceptions R802: the first failing check decides the code, and a refused word changes nothing else; a
word that fails none is accepted. 43_host_bus R700: with both strobes too, with any word on `hb_rdata`. -/
def Obligations.AcceptanceChecksInOrder : Prop :=
  ∀ (s : State) (h : HostAccess) (a : BitVec 12) (w : Word) (rest : List Event),
    s.facing (.host h) rest → h.writes a w → target a = .reg .cmd → s.busy = false →
    (firstFailingCheck w s ≠ 0 →
      answersWrite h (step s) ((s.popped rest).endedWith (BitVec.ofNat 4 (firstFailingCheck w s))))
    ∧ (firstFailingCheck w s = 0 →
      ∃ i t, decodeWord w = .command i ∧ exec i (s.popped rest) = .next t ∧ answersWrite h (step s) t ∧ t.err = 0#4)

/-- 60_exceptions R803: in a failed session SEND and SENDALL are refused, ENCODE and DECODE still run. -/
def Obligations.FailedSessionKeepsTheCodec : Prop :=
  ∀ (s : State) (flag : BitVec 2) (len : BitVec 10) (seq : Seq),
    s.sess.failed = true → s.busy = false → len.toNat ≤ 996 →
    exec (.sendFirst len) s = .next (s.endedWith 6#4)
    ∧ exec (.sendMiddle len) s = .next (s.endedWith 6#4)
    ∧ exec (.sendLast len) s = .next (s.endedWith 6#4)
    ∧ exec .sendall s = .next (s.endedWith 6#4)
    ∧ (flag ≠ 3#2 → ∃ t, exec (.encode flag len seq) s = .next t ∧ t.st = .codec ∧ t.err = 0#4 ∧ t.sess = s.sess)
    ∧ (4 ≤ s.codec.cbufLen.toNat → s.codec.cbufLen.toNat ≤ 1000 →
        ∃ t, exec .decode s = .next t ∧ t.st = .codec ∧ t.err = 0#4 ∧ t.sess = s.sess)

/-! ### ENCODE and DECODE -/

/-- 40_codec R410: ENCODE puts the frame in CBUF and its length in CBUF_LEN, and nothing else. That the command
ends in a second step, with ST = CODEC between, is the model's reading (log entry 8). -/
def Obligations.EncodeWritesTheFrame : Prop :=
  ∀ (s : State) (flag : BitVec 2) (g : PacketFlag) (len : BitVec 10) (seq : Seq) (rest : List Event),
    s.st = .idle → PacketFlag.ofField? flag = some g → len.toNat ≤ 996 →
    ∃ t u, exec (.encode flag len seq) s = .next t
      ∧ t = { s with st := .codec, err := 0#4, codec := { s.codec with job := t.codec.job } }
      ∧ step (t.popped (.codecDone :: rest)) = .next u
      ∧ u = { (s.popped rest).endedOk with
              mem := u.mem
              codec := { s.codec with cbufLen := BitVec.ofNat 10 (len.toNat + 4), job := none } }
      ∧ cbufBytes u (len.toNat + 4) = encodeFrame seq g (txbufBytes s len.toNat)
      ∧ sameOutside s.mem u.mem 0x800 (len.toNat + 4)

/-- 40_codec R420: DECODE reports the fields of the frame in CBUF, and changes nothing else. That the command
ends in a second step is the model's reading (log entry 8). -/
def Obligations.DecodeReportsTheFields : Prop :=
  ∀ (s : State) (rest : List Event), s.st = .idle → 4 ≤ s.codec.cbufLen.toNat → s.codec.cbufLen.toNat ≤ 1000 →
    ∃ t u, exec .decode s = .next t
      ∧ t = { s with st := .codec, err := 0#4, codec := { s.codec with job := t.codec.job } }
      ∧ step (t.popped (.codecDone :: rest)) = .next u
      ∧ u = { (s.popped rest).endedOk with
              codec := { s.codec with decResult := u.codec.decResult, decSeq := u.codec.decSeq, job := none } }
      ∧ (let b := cbufBytes s s.codec.cbufLen.toNat
         let r := u.codec.decResult.toNat
         let q := u.codec.decSeq.toNat
         r % 256 = (byteAt b 0).toNat
         ∧ r / 256 % 256 = ((b.drop 1).map BitVec.toNat).sum % 256
         ∧ r / 65536 % 256 = (if (byteAt b 0).toNat = ((b.drop 1).map BitVec.toNat).sum % 256 then 1 else 0)
         ∧ r / 16777216 = (byteAt b 3).toNat
         ∧ q % 65536 = (byteAt b 1).toNat * 256 + (byteAt b 2).toNat
         ∧ q / 65536 = s.codec.cbufLen.toNat - 4)

/-- 40_codec R421: DECODE of a malformed length is refused and changes no result. -/
def Obligations.DecodeRefusesMalformedLengths : Prop :=
  ∀ s : State, s.st = .idle → (s.codec.cbufLen.toNat < 4 ∨ 1000 < s.codec.cbufLen.toNat) →
    exec .decode s = .next (s.endedWith 5#4)

/-- 40_codec R407, R420: DECODE of the frame ENCODE just built matches and reports what was encoded. With no event
to come the sequencer ends a codec command by itself (log entries 3 and 8). -/
def Obligations.DecodeAfterEncodeMatches : Prop :=
  ∀ (s : State) (flag : BitVec 2) (len : BitVec 10) (seq : Seq),
    s.st = .idle → s.inputs = [] → flag ≠ 3#2 → len.toNat ≤ 996 →
    ∃ t1 u1 t2 u2, exec (.encode flag len seq) s = .next t1 ∧ step t1 = .next u1
      ∧ exec .decode u1 = .next t2 ∧ step t2 = .next u2
      ∧ u2.codec.decResult.toNat / 65536 % 256 = 1
      ∧ u2.codec.decResult.toNat / 16777216 = flag.toNat
      ∧ u2.codec.decSeq.toNat = len.toNat * 65536 + seq.toNat
      ∧ u2.sess = s.sess ∧ u2.err = 0#4 ∧ u2.st = .idle

/-! ### SEND and SENDALL -/

/-- 41_arq_send R501, R503, R504, R510: a data SEND with room in the window pushes at once. -/
def Obligations.SendDataPushesWithRoom : Prop :=
  ∀ (s : State) (i : Instr) (g : PacketFlag) (len : BitVec 10),
    (i = .sendFirst len ∧ g = .first) ∨ (i = .sendMiddle len ∧ g = .middle) →
    s.st = .idle → s.sess.failed = false → len.toNat ≤ 996 → s.fifoLen < s.window →
    exec i s = .next
      { s with
        st := .tx
        err := 0#4
        sess := { s.sess with
          curFlag := g, cfgLocked := true, lastSent := false
          inFlight := BitVec.ofNat 18 s.fifoLen, oldestSeq := s.headSeq
          pending := sentFrame s g len.toNat
          fifo := s.sess.fifo ++ [sentFrame s g len.toNat]
          nextSeq := s.sess.nextSeq + 1#16 }
        timers := { s.timers with sessionCnt := if s.sess.fifo = [] then 0#16 else s.timers.sessionCnt }
        emission := { queue := [sentFrame s g len.toNat], index := 0, cont := .finish } }

/-- 41_arq_send R501, R502, R503, 42_arq_events R600: a SEND waits, its packet unsent, while the window is full. The
FIFO has WMAX + 1 slots (10_state R130), so at most 32768 frames. -/
def Obligations.SendWaitsWhenFull : Prop :=
  ∀ (s : State) (i : Instr) (g : PacketFlag) (len : BitVec 10),
    (i = .sendFirst len ∧ g = .first) ∨ (i = .sendMiddle len ∧ g = .middle) ∨ (i = .sendLast len ∧ g = .last) →
    s.st = .idle → s.sess.failed = false → len.toNat ≤ 996 → s.window ≤ s.fifoLen → s.fifoLen ≤ 32768 →
    exec i s = .next
      { s with
        st := .waitAck
        err := 0#4
        sess := { s.sess with
          curFlag := g, cfgLocked := true, lastSent := false
          inFlight := BitVec.ofNat 18 s.fifoLen, oldestSeq := s.headSeq
          pending := sentFrame s g len.toNat }
        timers := { s.timers with attemptCnt := 0#16 } }

/-- 41_arq_send R501, R502, R510: SEND.LAST with room in the window pushes its packet at once. -/
def Obligations.SendLastPushesWithRoom : Prop :=
  ∀ (s : State) (len : BitVec 10),
    s.st = .idle → s.sess.failed = false → len.toNat ≤ 996 → s.fifoLen < s.window →
    exec (.sendLast len) s = .next
      { s with
        st := .tx
        err := 0#4
        sess := { s.sess with
          curFlag := .last, cfgLocked := true, lastSent := true
          inFlight := BitVec.ofNat 18 s.fifoLen, oldestSeq := s.headSeq
          pending := sentFrame s .last len.toNat
          fifo := s.sess.fifo ++ [sentFrame s .last len.toNat]
          nextSeq := s.sess.nextSeq + 1#16 }
        timers := { s.timers with sessionCnt := if s.sess.fifo = [] then 0#16 else s.timers.sessionCnt }
        emission := { queue := [sentFrame s .last len.toNat], index := 0, cont := .loop } }

/-- 41_arq_send R553: SEND.LAST with an empty FIFO completes after its one emission. -/
def Obligations.SendLastAloneCompletes : Prop :=
  ∀ (s : State) (len : BitVec 10) (rest : List Event),
    s.st = .idle → s.sess.failed = false → len.toNat ≤ 996 → s.sess.fifo = [] → 1 ≤ s.window →
    s.sink.part = [] → s.inputs = .txFrame :: rest →
    ∃ t u, exec (.sendLast len) s = .next t ∧ step t = .next u
      ∧ u.st = .idle ∧ u.err = 0#4 ∧ u.irq.pending = s.irq.pending ||| 0x01#5
      ∧ u.sess.fifo = [sentFrame s .last len.toNat] ∧ u.sess.lastSent = true
      ∧ u.timers.sessionCnt = 0#16 ∧ u.sess.nextSeq = s.sess.nextSeq + 1#16
      ∧ u.sink.frames = s.sink.frames ++ [sentFrame s .last len.toNat]
      ∧ u.mem = s.mem ∧ u.cfg = s.cfg ∧ u.counters = s.counters ∧ u.codec = s.codec

/-- 41_arq_send R540, R511: SENDALL starts a round of the whole FIFO; with an empty FIFO it completes at once. -/
def Obligations.SendallResendsTheFifo : Prop :=
  ∀ s : State, s.st = .idle → s.sess.failed = false →
    (s.sess.fifo ≠ [] → exec .sendall s = .next
      { s with
        st := .retx
        err := 0#4
        counters := { s.counters with retx := s.counters.retx + 1#32 }
        emission := { queue := s.sess.fifo, index := 0, cont := .finish } })
    ∧ (s.sess.fifo = [] → exec .sendall s = .next
      { s.endedOk with
        counters := { s.counters with retx := s.counters.retx + 1#32 }
        emission := { queue := [], index := 0, cont := .finish } })

/-! ### The TX port -/

/-- 20_memory R220, R221, 41_arq_send R511: one frame leaves whole, and then the next, or the command's end,
or the loop test. -/
def Obligations.FrameEmissionContinues : Prop :=
  ∀ (s : State) (f : Frame) (later : List Frame) (rest : List Event),
    Inv s → s.inputs = .txFrame :: rest → s.emitting = true → s.emission.queue = f :: later →
    ∃ t, step s = .next t ∧ t.sink = { frames := s.sink.frames ++ [f], part := [] }
      ∧ (let b := { s.popped rest with
                    sink := t.sink, emission := { s.emission with queue := later, index := 0 } }
         (later ≠ [] → t = b)
         ∧ (later = [] → s.emission.cont = .finish → t = b.endedOk)
         ∧ (later = [] → s.emission.cont = .loop →
              (loopCondition s.sess.curFlag s.window s.flight → t = b.attempting)
              ∧ (¬ loopCondition s.sess.curFlag s.window s.flight → t = b.endedOk)))

/-- 20_memory R220: taking the bytes of the head frame one at a time does what taking the frame whole does. -/
def Obligations.ByteEmissionRefinesFrameEmission : Prop :=
  ∀ (s : State) (f : Frame) (later : List Frame) (rest : List Event),
    Inv s → s.emitting = true → s.emission.queue = f :: later →
    ∃ t, Host.Core.run core (f.length - s.emission.index)
          (s.popped (List.replicate (f.length - s.emission.index) .txByte ++ rest)) = .next t
      ∧ step (s.popped (.txFrame :: rest)) = .next t

/-- 20_memory R220, R223: outside their states the ports transfer nothing. -/
def Obligations.ClosedPortsTransferNothing : Prop :=
  ∀ (s : State) (e : Event) (rest : List Event),
    s.facing e rest →
    (s.st ≠ .tx ∧ s.st ≠ .retx ∧ (e = .txByte ∨ e = .txFrame))
      ∨ (s.st ≠ .waitAck ∧ s.st ≠ .rx ∧ (e = .rxByte ∨ e = .rxFrame)) →
    step s = .next (s.popped rest)

/-! ### The RX port and the wait loop -/

/-- 42_arq_events R602 to R605: a frame is judged on its first 1000 bytes; a malformed one and one with a bad
checksum are counted, change no session state, and start a new attempt. -/
def Obligations.BadFramesAreCountedAndDropped : Prop :=
  ∀ (s : State) (f : Frame) (later : List Frame) (rest : List Event),
    s.facing .rxFrame rest → s.st = .waitAck → s.source = { rest := [], waiting := f :: later } → f ≠ [] →
    f.length < 4 ∨ passesChecksum (f.take 1000) = false →
    ∃ r, r.active = false ∧ step s = .next
      { (s.popped rest).attempting with
        source := { rest := [], waiting := later }
        rxr := r
        counters := { s.counters with
          trunc := s.counters.trunc + (if 1000 < f.length then 1#32 else 0#32)
          malformed := s.counters.malformed + (if f.length < 4 then 1#32 else 0#32)
          badCsum := s.counters.badCsum + (if f.length < 4 then 0#32 else 1#32) } }

/-- 42_arq_events R620 to R624: a valid ACK, whatever its flag byte and payload. -/
def Obligations.ValidAckIsCumulative : Prop :=
  ∀ (s : State) (f : Frame) (later : List Frame) (rest : List Event),
    s.facing .rxFrame rest → s.st = .waitAck → s.source = { rest := [], waiting := f :: later } →
    4 ≤ f.length → passesChecksum (f.take 1000) = true →
    let c := (frameSeq f).toNat + 65537 - s.sess.oldestSeq.toNat
    let left := s.sess.fifo.drop (c % 65536)
    let flight := s.sess.inFlight - BitVec.ofNat 18 (c % 65536)
    ∃ r, r.active = false ∧
      (let b := { s.popped rest with
                  source := { rest := [], waiting := later }
                  rxr := r
                  counters := { s.counters with
                    trunc := s.counters.trunc + (if 1000 < f.length then 1#32 else 0#32)
                    ack := s.counters.ack + 1#32 }
                  sess := { s.sess with
                    fifo := left, inFlight := flight, oldestSeq := s.sess.oldestSeq + BitVec.ofNat 16 c }
                  timers := { s.timers with sessionCnt := if left = [] then s.timers.sessionCnt else 0#16 } }
       let pushed := fun (k : TxCont) (sent : Bool) =>
         { b with
           st := .tx
           sess := { b.sess with
             fifo := left ++ [s.sess.pending], nextSeq := s.sess.nextSeq + 1#16, lastSent := sent }
           timers := { s.timers with sessionCnt := 0#16 }
           emission := { queue := [s.sess.pending], index := 0, cont := k } }
       if s.sess.curFlag = .last ∧ s.sess.lastSent = false then step s = .next (pushed .loop true)
       else
         (loopCondition s.sess.curFlag s.window flight.toInt → step s = .next b.attempting)
         ∧ (¬ loopCondition s.sess.curFlag s.window flight.toInt → s.sess.curFlag = .last →
             step s = .next b.endedOk)
         ∧ (¬ loopCondition s.sess.curFlag s.window flight.toInt → s.sess.curFlag ≠ .last →
             step s = .next (pushed .finish s.sess.lastSent)))

/-- 42_arq_events R650: while OLDEST_SEQ = HEAD_SEQ, an ACK of outstanding numbers removes exactly the frames
whose sequence numbers lie in the wrap-aware range from OLDEST_SEQ to the acknowledged number. -/
def Obligations.AckRemovesExactlyTheAcknowledged : Prop :=
  ∀ (s : State) (f : Frame) (later : List Frame) (rest : List Event),
    Inv s → s.inputs = .rxFrame :: rest → s.st = .waitAck → s.source = { rest := [], waiting := f :: later } →
    4 ≤ f.length → passesChecksum (f.take 1000) = true → s.sess.oldestSeq = s.headSeq →
    (frameSeq f - s.sess.oldestSeq + 1#16).toNat ≤ s.fifoLen →
    ∃ t, step s = .next t ∧
      (let kept := s.sess.fifo.filter fun g =>
         decide ((frameSeq f - s.sess.oldestSeq + 1#16).toNat ≤ (frameSeq g - s.sess.oldestSeq).toNat)
       t.sess.fifo = kept ∨ t.sess.fifo = kept ++ [s.sess.pending])

/-- 42_arq_events R651: an ACK of a number that is not outstanding drops the whole FIFO and moves IN_FLIGHT by
the full count. -/
def Obligations.StaleAckDropsEverything : Prop :=
  ∀ (s : State) (f : Frame) (later : List Frame) (rest : List Event),
    Inv s → s.inputs = .rxFrame :: rest → s.st = .waitAck → s.source = { rest := [], waiting := f :: later } →
    4 ≤ f.length → passesChecksum (f.take 1000) = true →
    s.fifoLen < (frameSeq f - s.sess.oldestSeq + 1#16).toNat →
    ∃ t, step s = .next t
      ∧ (t.sess.fifo = [] ∨ t.sess.fifo = [s.sess.pending])
      ∧ t.flight = s.flight - ((frameSeq f - s.sess.oldestSeq + 1#16).toNat : Int)
      ∧ t.sess.oldestSeq = frameSeq f + 1#16

/-- 20_memory R222, R224: a frame received byte by byte does what the frame received in one step does. -/
def Obligations.ByteReceptionRefinesFrameReception : Prop :=
  ∀ (s : State) (f : Frame) (later : List Frame) (rest : List Event),
    Inv s → s.st = .waitAck → s.source = { rest := [], waiting := f :: later } →
    ∃ t, Host.Core.run core f.length (s.popped (List.replicate f.length .rxByte ++ rest)) = .next t
      ∧ step (s.popped (.rxFrame :: rest)) = .next t

/-- 20_memory R223, 10_state R103: datagrams wait in order, and a zero-length one is never delivered. The queue of
the RX source is the model's (log entry 11). -/
def Obligations.DatagramsWaitInOrder : Prop :=
  ∀ (s : State) (f : Frame) (rest : List Event), s.facing (.rxDatagram f) rest →
    step s = .next
      { s.popped rest with
        source := { s.source with waiting := s.source.waiting ++ (if f.length = 0 then [] else [f]) } }

/-! ### Ticks -/

/-- 42_arq_events R610, R611: a tick that expires no attempt only counts. -/
def Obligations.TickCountsTheTimers : Prop :=
  ∀ (s : State) (rest : List Event), s.facing .tick rest →
    ¬ (s.st = .waitAck ∧ s.cfg.ackWait.toNat ≤ min (s.timers.attemptCnt.toNat + 1) 65535) →
    ∃ c a, step s = .next { s.popped rest with timers := { sessionCnt := c, attemptCnt := a } }
      ∧ c.toNat = min (s.timers.sessionCnt.toNat + 1) 65535
      ∧ (s.st = .waitAck ∨ s.st = .rx → a.toNat = min (s.timers.attemptCnt.toNat + 1) 65535)
      ∧ (s.st ≠ .waitAck → s.st ≠ .rx → a = s.timers.attemptCnt)

/-- 42_arq_events R630, R631, R632: an expiry below the giveup bound goes back N. -/
def Obligations.ExpiryGoesBackN : Prop :=
  ∀ (s : State) (rest : List Event), Inv s → s.inputs = .tick :: rest → s.st = .waitAck →
    s.cfg.ackWait.toNat ≤ min (s.timers.attemptCnt.toNat + 1) 65535 →
    min (s.timers.sessionCnt.toNat + 1) 65535 < s.cfg.giveup.toNat →
    s.sess.fifo ≠ [] ∧
    ∃ a, a.toNat = min (s.timers.attemptCnt.toNat + 1) 65535 ∧ step s = .next
      { s.popped rest with
        st := .retx
        timers := { sessionCnt := 0#16, attemptCnt := a }
        counters := { s.counters with retx := s.counters.retx + 1#32 }
        emission := { queue := s.sess.fifo, index := 0, cont := .loop } }

/-- 42_arq_events R640, R641: a giveup under the FATAL policy. -/
def Obligations.FatalGiveupFailsTheSession : Prop :=
  ∀ (s : State) (rest : List Event), s.facing .tick rest → s.st = .waitAck → s.cfg.policy = .fatal →
    s.cfg.ackWait.toNat ≤ min (s.timers.attemptCnt.toNat + 1) 65535 →
    s.cfg.giveup.toNat ≤ min (s.timers.sessionCnt.toNat + 1) 65535 →
    ∃ c a, c.toNat = min (s.timers.sessionCnt.toNat + 1) 65535 ∧ a.toNat = min (s.timers.attemptCnt.toNat + 1) 65535
      ∧ step s = .next
        { ((s.popped rest).raising 0x04#5).endedWith 7#4 with
          sess := { s.sess with failed := true }
          timers := { sessionCnt := c, attemptCnt := a } }

/-- 42_arq_events R640, R642: a giveup under the DROP policy. -/
def Obligations.DropGiveupStartsAFreshSession : Prop :=
  ∀ (s : State) (rest : List Event), s.facing .tick rest → s.st = .waitAck → s.cfg.policy = .drop →
    s.cfg.ackWait.toNat ≤ min (s.timers.attemptCnt.toNat + 1) 65535 →
    s.cfg.giveup.toNat ≤ min (s.timers.sessionCnt.toNat + 1) 65535 →
    ∃ a, a.toNat = min (s.timers.attemptCnt.toNat + 1) 65535
      ∧ step s = .next
        { ((s.popped rest).raising 0x04#5).endedWith 8#4 with
          sess := { s.sess with
            fifo := [], nextSeq := 0#16, oldestSeq := 0#16, inFlight := 0#18, lastSent := false, cfgLocked := false }
          timers := { sessionCnt := 0#16, attemptCnt := a } }

/-- 42_arq_events R640, R643: a giveup under the RETRY policy is a retransmission that sets the GIVEUP bit. -/
def Obligations.RetryGiveupRetransmits : Prop :=
  ∀ (s : State) (rest : List Event), Inv s → s.inputs = .tick :: rest → s.st = .waitAck → s.cfg.policy = .retry →
    s.cfg.ackWait.toNat ≤ min (s.timers.attemptCnt.toNat + 1) 65535 →
    s.cfg.giveup.toNat ≤ min (s.timers.sessionCnt.toNat + 1) 65535 →
    ∃ a, a.toNat = min (s.timers.attemptCnt.toNat + 1) 65535 ∧ step s = .next
      { (s.popped rest).raising 0x04#5 with
        st := .retx
        timers := { sessionCnt := 0#16, attemptCnt := a }
        counters := { s.counters with retx := s.counters.retx + 1#32 }
        emission := { queue := s.sess.fifo, index := 0, cont := .loop } }

/-! ### The host bus -/

/-- 20_memory R217: a read changes no state of the block; only `hb_rdata` takes the word read (log entry 7;
`freeCount` is the model's own count of free values drawn, log entry 9). -/
def Obligations.ReadsHaveNoSideEffect : Prop :=
  ∀ (s : State) (a : BitVec 12) (rest : List Event), s.facing (.host (.read a)) rest →
    ∃ v n, step s = .next { s.popped rest with rdata := v, freeCount := n }

/-- 20_memory R204, 43_host_bus R700, 10_state R110 and R120 to R186: what each register address reads. -/
def Obligations.RegisterReadValues : Prop :=
  ∀ (s : State) (a : BitVec 12) (rest : List Event), s.facing (.host (.read a)) rest → s.st ≠ .codec →
    ∃ t, step s = .next t ∧
      (let k := a.toNat / 4
       let v := t.rdata.toNat
       (k = 0 → v = 0x52554450) ∧ (k = 1 → v = 996 * 65536 + s.cfg.wmax.toNat)
       ∧ (k = 2 → v = policyNumber s.cfg.policy) ∧ (k = 3 → v = s.cfg.windowSize.toNat)
       ∧ (k = 4 → v = s.cfg.ackWait.toNat) ∧ (k = 5 → v = s.cfg.giveup.toNat) ∧ (k = 6 → v = 0)
       ∧ (k = 7 → v = s.busy.toNat + 2 * s.sess.failed.toNat + 4 * s.sess.cfgLocked.toNat
            + 8 * s.sess.lastSent.toNat + 16 * (decide (s.sess.curFlag = .last)).toNat
            + 256 * stNumber s.st + 4096 * s.err.toNat)
       ∧ (k = 8 → v = s.irq.enable.toNat) ∧ (k = 9 → v = s.irq.pending.toNat)
       ∧ (k = 10 → v = s.sess.nextSeq.toNat) ∧ (k = 11 → v = s.sess.oldestSeq.toNat)
       ∧ (k = 12 → t.rdata.toInt = s.flight) ∧ (k = 13 → v = s.fifoLen % 65536)
       ∧ (k = 14 → (v + s.fifoLen) % 65536 = s.sess.nextSeq.toNat ∧ v < 65536)
       ∧ (k = 15 → v = s.timers.sessionCnt.toNat) ∧ (k = 16 → v = s.timers.attemptCnt.toNat)
       ∧ (k = 17 → t.rdata = s.counters.retx) ∧ (k = 18 → t.rdata = s.counters.ack)
       ∧ (k = 19 → t.rdata = s.counters.badCsum) ∧ (k = 20 → t.rdata = s.counters.malformed)
       ∧ (k = 21 → t.rdata = s.counters.trunc) ∧ (k = 22 → v = s.codec.cbufLen.toNat)
       ∧ (k = 23 → t.rdata = s.codec.decResult) ∧ (k = 24 → t.rdata = s.codec.decSeq)
       ∧ (25 ≤ k → k < 0x100 → v = 0) ∧ (0x300 ≤ k → v = 0))

/-- 20_memory R206, R207, R212: a word written to a buffer window while idle goes to its four byte lanes, lowest
address in bits [7:0]; bytes that do not exist are dropped; every other byte and all else is unchanged. 43_host_bus
R700: a cycle with both strobes is that write, with any word on `hb_rdata`. -/
def Obligations.BufferWritesGoToTheirLanes : Prop :=
  ∀ (s : State) (h : HostAccess) (a : BitVec 12) (v : Word) (rest : List Event),
    s.facing (.host h) rest → h.writes a v → s.busy = false → 0x400 ≤ a.toNat → a.toNat < 0xC00 →
    ∃ m, answersWrite h (step s) { s.popped rest with mem := m }
      ∧ (∀ j, j < 4 →
          Memory.load m (a.toNat / 4 * 4 + j)
            = if bufferByteExists (a.toNat / 4 * 4 + j) then BitVec.ofNat 8 (v.toNat / 256 ^ j) else 0#8)
      ∧ sameOutside s.mem m (a.toNat / 4 * 4) 4

/-- 20_memory R206, R207: a read of a buffer window while no codec command runs returns the four byte lanes. -/
def Obligations.BufferReadsShowTheirLanes : Prop :=
  ∀ (s : State) (a : BitVec 12) (rest : List Event),
    s.facing (.host (.read a)) rest → s.st ≠ .codec → 0x400 ≤ a.toNat → a.toNat < 0xC00 →
    ∃ t, step s = .next t ∧ ∀ j, j < 4 →
      t.rdata.toNat / 256 ^ j % 256 = (Memory.load s.mem (a.toNat / 4 * 4 + j)).toNat

/-- 43_host_bus R701: a read made while a codec command runs shows each byte of CBUF as it was or as the command
leaves it, and no other address is affected (log entry 9: the choice is a free value). -/
def Obligations.CodecReadsShowOldOrNew : Prop :=
  ∀ (s : State) (a : BitVec 12) (rest : List Event),
    s.facing (.host (.read a)) rest → s.st = .codec →
    ∃ t, step s = .next t ∧
      (∀ j, j < 4 → 0x800 ≤ a.toNat → a.toNat < 0xC00 →
        t.rdata.toNat / 256 ^ j % 256 = (Memory.load s.mem (a.toNat / 4 * 4 + j)).toNat
        ∨ t.rdata.toNat / 256 ^ j % 256 = (Memory.load (codecStep s).mem (a.toNat / 4 * 4 + j)).toNat)
      ∧ (a.toNat / 4 = 22 → t.rdata.toNat = s.codec.cbufLen.toNat ∨ t.rdata.toNat = (codecStep s).codec.cbufLen.toNat)
      ∧ (a.toNat / 4 = 23 → t.rdata = s.codec.decResult ∨ t.rdata = (codecStep s).codec.decResult)
      ∧ (a.toNat / 4 = 24 → t.rdata = s.codec.decSeq ∨ t.rdata = (codecStep s).codec.decSeq)
      ∧ (a.toNat < 0x800 → a.toNat / 4 ≠ 22 → a.toNat / 4 ≠ 23 → a.toNat / 4 ≠ 24 →
          t.rdata = readTarget s (target a) ∧ t.freeCount = s.freeCount)

/-- 43_host_bus R705: an ignored write sets WR_IGNORED and changes nothing else; no other write sets it. R700: with
both strobes too, with any word on `hb_rdata`. -/
def Obligations.IgnoredWritesOnlySetTheFlag : Prop :=
  ∀ (s : State) (h : HostAccess) (a : BitVec 12) (v : Word) (rest : List Event),
    s.facing (.host h) rest → h.writes a v →
    (writeIgnored (target a) v s → answersWrite h (step s) ((s.popped rest).raising 0x10#5))
    ∧ (¬ writeIgnored (target a) v s →
        ∃ t, step s = .next t ∧ (t.irq.pending.getLsbD 4 = true → s.irq.pending.getLsbD 4 = true))

/-- 10_state R142, R162 to R165, R168: a write that is not ignored stores its field and nothing else; 43_host_bus
R700: so does a cycle with both strobes, with any word on `hb_rdata`. -/
def Obligations.ConfigWritesStoreTheirField : Prop :=
  ∀ (s : State) (h : HostAccess) (a : BitVec 12) (v : Word) (rest : List Event),
    s.facing (.host h) rest → h.writes a v → ¬ writeIgnored (target a) v s →
    (target a = .reg .ctrl → ∃ p, policyNumber p = v.toNat % 4
        ∧ answersWrite h (step s) { s.popped rest with cfg := { s.cfg with policy := p } })
    ∧ (target a = .reg .windowSize → ∃ x, x.toNat = v.toNat % 65536
        ∧ answersWrite h (step s) { s.popped rest with cfg := { s.cfg with windowSize := x } })
    ∧ (target a = .reg .ackWait → ∃ x, x.toNat = v.toNat % 65536
        ∧ answersWrite h (step s) { s.popped rest with cfg := { s.cfg with ackWait := x } })
    ∧ (target a = .reg .giveup → ∃ x, x.toNat = v.toNat % 65536
        ∧ answersWrite h (step s) { s.popped rest with cfg := { s.cfg with giveup := x } })
    ∧ (target a = .reg .cbufLen → ∃ x, x.toNat = v.toNat % 1024
        ∧ answersWrite h (step s) { s.popped rest with codec := { s.codec with cbufLen := x } })
    ∧ (target a = .reg .irqEnable → ∃ x, x.toNat = v.toNat % 32
        ∧ answersWrite h (step s) { s.popped rest with irq := { s.irq with enable := x } })

/-- 43_host_bus R706: writing 1 to a pending bit clears it, writing 0 leaves it, and nothing else changes.
R700: with both strobes too, with any word on `hb_rdata`. -/
def Obligations.PendingBitsClearOnWriteOne : Prop :=
  ∀ (s : State) (h : HostAccess) (a : BitVec 12) (v : Word) (rest : List Event),
    s.facing (.host h) rest → h.writes a v → target a = .reg .irqPending →
    ∃ p, answersWrite h (step s) { s.popped rest with irq := { s.irq with pending := p } }
      ∧ ∀ i, i < 5 → p.getLsbD i = (s.irq.pending.getLsbD i && !v.getLsbD i)

/-- 60_exceptions R820: `irq` is the OR of the enabled pending bits. -/
def Obligations.IrqIsTheOrOfEnabledPending : Prop :=
  ∀ s : State, s.irqLine = true ↔ ∃ i, i < 5 ∧ s.irq.pending.getLsbD i = true ∧ s.irq.enable.getLsbD i = true

/-- 20_memory R205: reserved addresses read 0 and ignore writes; read-only registers ignore writes. 43_host_bus R700:
with both strobes too, with any word on `hb_rdata`. -/
def Obligations.ReservedAndReadOnlyAreInert : Prop :=
  ∀ (s : State) (h : HostAccess) (a : BitVec 12) (v : Word) (rest : List Event),
    (s.facing (.host (.read a)) rest → (25 ≤ a.toNat / 4 ∧ a.toNat / 4 < 0x100) ∨ 0x300 ≤ a.toNat / 4 →
      step s = .next { s.popped rest with rdata := 0#32 })
    ∧ (s.facing (.host h) rest → h.writes a v →
        (a.toNat / 4 ∈ [0, 1, 7, 10, 11, 12, 13, 14, 15, 16, 17, 18, 19, 20, 21, 23, 24])
          ∨ (25 ≤ a.toNat / 4 ∧ a.toNat / 4 < 0x100) ∨ 0x300 ≤ a.toNat / 4 →
      answersWrite h (step s) (s.popped rest))

/-- 20_memory R237, 42_arq_events section 1: while the block is busy no host access changes the session, the
configuration, the buffers, the codec, the timers, the ports, the counters or ST. -/
def Obligations.HostCannotDisturbABusyBlock : Prop :=
  ∀ (s : State) (h : HostAccess) (rest : List Event), s.facing (.host h) rest → s.busy = true →
    ∃ q v n, step s = .next { s.popped rest with irq := q, rdata := v, freeCount := n }

/-! ### Cycles and reset -/

/-- 60_exceptions R823, in the cycle in which a codec command or an RX frame completes (log entry 12: what a cycle
event does). The codec: a CMD write is an overrun, and the completion's DONE bit is set whatever the host clears.
A received byte and a tick, 42_arq_events R611: the byte's step comes first and the tick's second, so the tick finds
the attempt that the end of a frame starts, ATTEMPT_CNT at 0, and expires it only under ACK_WAIT = 1. -/
def Obligations.CompletionCycleOrder : Prop :=
  ∀ (s : State) (c : Cycle) (rest : List Event), Inv s → s.inputs = .cycle c :: rest → c.rst = false →
    (∀ (h : HostAccess) (a : BitVec 12) (w : Word),
      s.st = .codec → c.codecGo = true → c.host = some h → h.writes a w →
      (target a = .reg .cmd → ∃ t, step s = .next t ∧ t.st = .idle
        ∧ t.irq.pending = s.irq.pending ||| 0x09#5 ∧ t.sess = s.sess ∧ t.err = 0#4)
      ∧ (target a = .reg .irqPending → ∃ t, step s = .next t ∧ t.st = .idle ∧ t.irq.pending.getLsbD 0 = true
        ∧ t.sess = s.sess ∧ t.err = 0#4))
    ∧ (s.st = .waitAck ∨ s.st = .rx → c.rxValid = true → c.tick = true → c.host = none →
      ∃ t u, step (s.popped (.rxByte :: .tick :: rest)) = .next t ∧ step t = .next u ∧ step s = .next u
        ∧ (s.source.rest.length = 1 → t.st = .waitAck →
            t.timers.attemptCnt = 0#16
            ∧ (2 ≤ s.cfg.ackWait.toNat → u.st = .waitAck ∧ u.timers.attemptCnt = 1#16)))

/-- 70_reset R900, R902, R903: reset, alone or in a cycle with other events, from any state. The buffers are not
changed (10_state R140, R141), but that a reset which abandons an ENCODE leaves each byte as it was or as the
command would have left it is the model's choice (log entry 22). The last lines are the model's own: the agents
(log entry 11), `rdata` (7), `inputs` (1), `freeCount` (9). -/
def Obligations.ResetSetsEveryStateElement : Prop :=
  ∀ (s : State) (e : Event) (rest : List Event), s.inputs = e :: rest → e.isReset = true →
    ∃ t, step s = .next t
      ∧ t.st = .idle ∧ t.busy = false ∧ t.statusWord = 0#32 ∧ t.err = 0#4
      ∧ t.irq = { pending := 0#5, enable := 0#5 } ∧ t.irqLine = false
      ∧ t.cfg = { wmax := s.cfg.wmax, policy := .fatal, windowSize := 1#16, ackWait := 2#16, giveup := 5#16 }
      ∧ t.sess.failed = false ∧ t.sess.curFlag = .first ∧ t.sess.lastSent = false ∧ t.sess.cfgLocked = false
      ∧ t.sess.nextSeq = 0#16 ∧ t.sess.inFlight = 0#18 ∧ t.sess.oldestSeq = 0#16 ∧ t.sess.fifo = []
      ∧ t.headSeq = 0#16 ∧ t.fifoLen = 0
      ∧ t.timers = { sessionCnt := 0#16, attemptCnt := 0#16 }
      ∧ t.emission.queue = [] ∧ t.emission.cont = .finish ∧ t.txOffer = none ∧ t.rxReady = false
      ∧ t.rxr.active = false
      ∧ t.counters = { retx := 0#32, ack := 0#32, badCsum := 0#32, malformed := 0#32, trunc := 0#32 }
      ∧ t.codec = { cbufLen := 0#10, decResult := 0#32, decSeq := 0#32, job := none }
      ∧ (s.st ≠ .codec → t.mem = s.mem ∧ t.freeCount = s.freeCount)
      ∧ (∀ a, Memory.load t.mem a = Memory.load s.mem a ∨ Memory.load t.mem a = Memory.load (codecStep s).mem a)
      ∧ t.sink = { frames := s.sink.frames, part := [] }
      ∧ t.source = { rest := [], waiting := s.source.waiting }
      ∧ t.inputs = rest ∧ t.rdata = s.rdata

/-- 60_exceptions R853: idle, a tick only counts in SESSION_CNT and nothing else happens. That with no step to come
the machine stays as it is, is log entry 3; that a step of a port or of the sequencer that is not enabled is taken
off the list without effect, is log entry 17. -/
def Obligations.IdleBlockOnlyCountsTicks : Prop :=
  ∀ (s : State) (e : Event) (rest : List Event), CodesLegal s → s.st = .idle →
    (s.inputs = [] → step s = .next s)
    ∧ (s.inputs = e :: rest → e ∈ [.txByte, .txFrame, .rxByte, .rxFrame, .codecDone] →
        step s = .next (s.popped rest))
    ∧ (s.inputs = .tick :: rest →
        ∃ c, c.toNat = min (s.timers.sessionCnt.toNat + 1) 65535
          ∧ step s = .next { s.popped rest with timers := { s.timers with sessionCnt := c } })

/-- 93_implementation_defined U15, U16: a fault state stops the machine under every event but reset (that reset
leaves it is the model's choice, log entry 10). -/
def Obligations.FaultStatesStop : Prop :=
  ∀ (s : State) (e : Event) (rest : List Event), s.inputs = e :: rest → e.isReset = false →
    (s.st = .code6 ∨ s.st = .code7 → step s = .fault .sequencerCode)
    ∧ (s.st ≠ .code6 → s.st ≠ .code7 → 8 < s.err.toNat → step s = .fault .errorCode)

/-! ### Invariants and whole-machine rules -/

/-- The invariant holds at reset (70_reset R902, and the model's reset values, log entries 4, 6 and 11). -/
def Obligations.InvariantAtReset : Prop := Inv State.reset

/-- 10_state R116, R121, R130 to R133, R163; 41_arq_send R551, R552; 20_memory R220, R222: every step keeps the
invariant. -/
def Obligations.EveryStepKeepsTheInvariant : Prop :=
  ∀ s t : State, Inv s → step s = .next t → Inv t

/-- From a state of the invariant the machine never stops: every event is answered by a next state. -/
def Obligations.InvariantStatesNeverStop : Prop :=
  ∀ s : State, Inv s → ∃ t, step s = .next t

/-- Every step keeps the buffer memory in its canonical form. The form (addresses strictly rising, written bytes
only) is the model's choice (log entry 5); 20_memory R206 and R207 give the bytes that exist. -/
def Obligations.EveryStepKeepsMemoryCanonical : Prop :=
  ∀ s t : State, Memory.wf s.mem = true → step s = .next t → Memory.wf t.mem = true

/-- 10_state R118: every change of ST in one step is one of the table, reset apart. A whole RX frame and a whole
cycle are several steps of the table. -/
def Obligations.SequencerTransitions : Prop :=
  ∀ (s t : State) (e : Event) (rest : List Event),
    Inv s → s.inputs = e :: rest → e.isReset = false → e ≠ .rxFrame → (∀ c, e ≠ .cycle c) → step s = .next t →
    t.st = s.st ∨ t.st ∈ stMoves s.st

/-- 10_state R112: only reset clears FAILED. -/
def Obligations.OnlyResetClearsFailed : Prop :=
  ∀ (s t : State) (e : Event) (rest : List Event),
    s.inputs = e :: rest → e.isReset = false → s.sess.failed = true → step s = .next t → t.sess.failed = true

/-- 10_state R116, R163, 43_host_bus R705: the window size does not change while the block is busy or the
configuration locked, and WMAX never does. -/
def Obligations.WindowIsConstantInASession : Prop :=
  ∀ (s t : State) (e : Event) (rest : List Event),
    s.inputs = e :: rest → e.isReset = false → step s = .next t →
    t.cfg.wmax = s.cfg.wmax
    ∧ (s.busy = true ∨ s.sess.cfgLocked = true → t.cfg.windowSize = s.cfg.windowSize)

/-- 10_state R120, R130: frames enter the FIFO only at its tail, one at a time and with NEXT_SEQ, and leave only
from its head, unchanged; a DROP giveup empties it and starts again at 0. -/
def Obligations.FifoIsAQueueNumberedByNextSeq : Prop :=
  ∀ (s t : State) (e : Event) (rest : List Event),
    Inv s → s.inputs = e :: rest → e.isReset = false → step s = .next t →
    (∃ (k : Nat) (new : List Frame), t.sess.fifo = s.sess.fifo.drop k ++ new
      ∧ t.sess.nextSeq = s.sess.nextSeq + BitVec.ofNat 16 new.length
      ∧ (new = [] ∨ ∃ f, new = [f] ∧ frameSeq f = s.sess.nextSeq))
    ∨ (t.sess.fifo = [] ∧ t.sess.nextSeq = 0#16 ∧ t.err = 8#4)
end

