-- ==== Sys2Proof/Laws/Memory.lean ====
section
/-!
SUPPORT. The laws of the buffer memory: a read after a write, what a write leaves alone, and the canonical
form, which every memory operation keeps.
-/
namespace Sys2Proof.Machine.Memory

@[simp] theorem find?_nil (a : Nat) : find? [] a = none := rfl

theorem find?_put (m : Memory) (a c : Nat) (x : Byte) :
    find? (put m a x) c = if c = a then some x else find? m c := by
  induction m with
  | nil => simp [put, find?]
  | cons e m ih =>
    obtain ⟨b, v⟩ := e
    by_cases h1 : a < b
    · simp [put, h1, find?]
    · by_cases h2 : a = b
      · subst h2
        by_cases h3 : c = a <;> simp [put, find?, h3]
      · by_cases h3 : c = b
        · subst h3
          simp [put, find?, h1, h2, Ne.symm h2]
        · simp [put, find?, h1, h2, h3, ih]

/-- A byte that does not exist reads 0 (20_memory R206, R207). -/
@[simp] theorem load_absent (m : Memory) (a : Nat) (h : bufferByteExists a = false) : load m a = 0#8 := by
  simp [load, h]

/-- A read after a write of the same byte gives the byte written, if it exists. -/
theorem load_store_same (m : Memory) (a : Nat) (x : Byte) (h : bufferByteExists a = true) :
    load (store m a x) a = x := by
  simp [load, store, h, find?_put]

/-- A write leaves every other byte alone. -/
theorem load_store_other (m : Memory) (a c : Nat) (x : Byte) (h : c ≠ a) :
    load (store m a x) c = load m c := by
  by_cases he : bufferByteExists a = true <;> simp [load, store, he, find?_put, h]

/-- A write to a byte that does not exist changes nothing. -/
@[simp] theorem store_absent (m : Memory) (a : Nat) (x : Byte) (h : bufferByteExists a = false) :
    store m a x = m := by
  simp [store, h]

@[simp] theorem storeBytes_nil (m : Memory) (a : Nat) : storeBytes m a [] = m := rfl

@[simp] theorem storeBytes_cons (m : Memory) (a : Nat) (x : Byte) (xs : List Byte) :
    storeBytes m a (x :: xs) = storeBytes (store m a x) (a + 1) xs := rfl

/-- Bytes outside the range written read as before. -/
theorem load_storeBytes_outside (xs : List Byte) (m : Memory) (a c : Nat) (h : c < a ∨ a + xs.length ≤ c) :
    load (storeBytes m a xs) c = load m c := by
  induction xs generalizing m a with
  | nil => rfl
  | cons x xs ih =>
    simp only [List.length_cons] at h
    rw [storeBytes_cons, ih _ _ (by omega), load_store_other _ _ _ _ (by omega)]

/-- Bytes inside the range written read as written, where they exist. -/
theorem load_storeBytes_inside (xs : List Byte) (m : Memory) (a i : Nat) (hi : i < xs.length)
    (he : bufferByteExists (a + i) = true) : load (storeBytes m a xs) (a + i) = xs[i] := by
  induction xs generalizing m a i with
  | nil => simp at hi
  | cons x xs ih =>
    rw [storeBytes_cons]
    cases i with
    | zero =>
      rw [load_storeBytes_outside _ _ _ _ (by omega)]
      simpa using load_store_same m a x (by simpa using he)
    | succ i =>
      have hi' : i < xs.length := by simpa using hi
      have := ih (store m a x) (a + 1) i hi' (by rw [show a + 1 + i = a + (i + 1) by omega]; exact he)
      rw [show a + 1 + i = a + (i + 1) by omega] at this
      simpa using this

@[simp] theorem storeChosen_nil (p : Nat → Bool) (m : Memory) (a : Nat) : storeChosen p m a [] = m := rfl

@[simp] theorem storeChosen_cons (p : Nat → Bool) (m : Memory) (a : Nat) (x : Byte) (xs : List Byte) :
    storeChosen p m a (x :: xs) = storeChosen p (if p a then store m a x else m) (a + 1) xs := rfl

/-- A byte whose address is chosen reads as if all bytes were written, any other byte as before. -/
theorem load_storeChosen (p : Nat → Bool) (xs : List Byte) (m : Memory) (a c : Nat) :
    load (storeChosen p m a xs) c = if p c then load (storeBytes m a xs) c else load m c := by
  induction xs generalizing m a with
  | nil => simp
  | cons x xs ih =>
    rw [storeChosen_cons, ih, storeBytes_cons]
    by_cases hc : c = a
    · subst hc
      cases p c <;> simp
    · have same : load (if p a then store m a x else m) c = load m c := by
        split
        · exact load_store_other m a c x hc
        · rfl
      have sameAfter : load (storeBytes (if p a then store m a x else m) (a + 1) xs) c
          = load (storeBytes (store m a x) (a + 1) xs) c := by
        by_cases hin : c < a + 1 ∨ a + 1 + xs.length ≤ c
        · rw [load_storeBytes_outside _ _ _ _ hin, load_storeBytes_outside _ _ _ _ hin, same,
            load_store_other _ _ _ _ hc]
        · obtain ⟨i, rfl⟩ := Nat.exists_eq_add_of_le (show a + 1 ≤ c by omega)
          by_cases he : bufferByteExists (a + 1 + i) = true
          · rw [load_storeBytes_inside _ _ _ _ (by omega) he, load_storeBytes_inside _ _ _ _ (by omega) he]
          · have he' : bufferByteExists (a + 1 + i) = false := by simpa using he
            rw [load_absent _ _ he', load_absent _ _ he']
      rw [same, sameAfter]

@[simp] theorem length_loadBytes (m : Memory) (a n : Nat) : (loadBytes m a n).length = n := by
  induction n generalizing a with
  | zero => rfl
  | succ n ih => simp [loadBytes, ih]

theorem getElem_loadBytes (m : Memory) (a n i : Nat) (h : i < (loadBytes m a n).length) :
    (loadBytes m a n)[i] = load m (a + i) := by
  induction n generalizing a i with
  | zero => simp [loadBytes] at h
  | succ n ih =>
    cases i with
    | zero => rfl
    | succ i =>
      have h' : i < (loadBytes m (a + 1) n).length := by simpa using h
      simpa [loadBytes, show a + 1 + i = a + (i + 1) by omega] using ih (a + 1) i h'

/-- Reading back the bytes just stored. -/
theorem loadBytes_storeBytes (xs : List Byte) (m : Memory) (a : Nat)
    (he : ∀ i, i < xs.length → bufferByteExists (a + i) = true) :
    loadBytes (storeBytes m a xs) a xs.length = xs := by
  apply List.ext_getElem
  · simp
  · intro i h1 h2
    rw [getElem_loadBytes, load_storeBytes_inside xs m a i h2 (he i h2)]

/-! ### The canonical form -/

theorem risingFrom_put {l : Nat} {m : Memory} (h : risingFrom l m = true) {a : Nat} (ha : l < a) (x : Byte) :
    risingFrom l (put m a x) = true := by
  induction m generalizing l with
  | nil => simp [put, risingFrom, ha]
  | cons e m ih =>
    obtain ⟨b, v⟩ := e
    simp only [risingFrom, Bool.and_eq_true, decide_eq_true_eq] at h
    by_cases h1 : a < b
    · simp [put, h1, risingFrom, ha, h.2]
    · by_cases h2 : a = b
      · subst h2; simp [put, risingFrom, h.1, h.2]
      · simp [put, h1, h2, risingFrom, h.1, ih h.2 (by omega)]

theorem all_put {P : Host.Cell → Bool} {m : Memory} (h : m.all P = true) {a : Nat} {x : Byte}
    (hx : P (a, x) = true) : (put m a x).all P = true := by
  induction m with
  | nil => simp [put, hx]
  | cons e m ih =>
    obtain ⟨b, v⟩ := e
    simp only [List.all_cons, Bool.and_eq_true] at h
    by_cases h1 : a < b
    · simp only [put, h1, if_true, List.all_cons, Bool.and_eq_true]
      exact ⟨hx, h.1, h.2⟩
    · by_cases h2 : a = b
      · subst h2
        simp only [put, h1, if_false, if_true, List.all_cons, Bool.and_eq_true]
        exact ⟨hx, h.2⟩
      · simp only [put, h1, h2, if_false, List.all_cons, Bool.and_eq_true]
        exact ⟨h.1, ih h.2⟩

theorem exists_pos {a : Nat} (h : bufferByteExists a = true) : 0 < a := by
  rcases Nat.eq_zero_or_pos a with rfl | hp
  · exact absurd h (by decide)
  · exact hp

/-- A write of one byte keeps the canonical form. -/
theorem wf_store {m : Memory} (h : wf m = true) (a : Nat) (x : Byte) : wf (store m a x) = true := by
  by_cases he : bufferByteExists a = true
  · simp only [wf, Bool.and_eq_true] at h
    simp only [store, he, if_true, wf, Bool.and_eq_true]
    exact ⟨risingFrom_put h.1 (exists_pos he) x, all_put h.2 (by simpa using he)⟩
  · simpa [store, he] using h

/-- A write of several bytes keeps the canonical form. -/
theorem wf_storeBytes (xs : List Byte) {m : Memory} (h : wf m = true) (a : Nat) :
    wf (storeBytes m a xs) = true := by
  induction xs generalizing m a with
  | nil => exact h
  | cons x xs ih => exact ih (wf_store h a x) (a + 1)

/-- A write of some of several bytes keeps the canonical form. -/
theorem wf_storeChosen (p : Nat → Bool) (xs : List Byte) {m : Memory} (h : wf m = true) (a : Nat) :
    wf (storeChosen p m a xs) = true := by
  induction xs generalizing m a with
  | nil => exact h
  | cons x xs ih =>
    refine ih ?_ (a + 1)
    split
    · exact wf_store h a x
    · exact h

/-- A write of a word keeps the canonical form. -/
theorem wf_storeWord {m : Memory} (h : wf m = true) (a : Nat) (v : Word) : wf (storeWord m a v) = true :=
  wf_storeBytes _ h a

end Sys2Proof.Machine.Memory
end

