-- ==== Sys2Proof/Laws/Frame.lean ====
section
/-!
SUPPORT. The small lemmas of frames: the parts of an encoded frame, its checksum, and the checksum as a sum.
-/
namespace Sys2Proof.Machine

@[simp] theorem checksum_nil : checksum [] = 0#8 := rfl

theorem checksum_cons (x : Byte) (b : List Byte) : checksum (x :: b) = x + checksum b := by
  apply BitVec.eq_of_toNat_eq
  simp [checksum, BitVec.toNat_add]

@[simp] theorem encodeFrame_length (seq : Seq) (flag : PacketFlag) (p : List Byte) :
    (encodeFrame seq flag p).length = p.length + 4 := by
  simp [encodeFrame]

@[simp] theorem encodeFrame_tail (seq : Seq) (flag : PacketFlag) (p : List Byte) :
    (encodeFrame seq flag p).tail = highByte seq :: lowByte seq :: flag.code :: p := rfl

@[simp] theorem byteAt_encodeFrame_zero (seq : Seq) (flag : PacketFlag) (p : List Byte) :
    byteAt (encodeFrame seq flag p) 0 = checksum (highByte seq :: lowByte seq :: flag.code :: p) := rfl

@[simp] theorem byteAt_encodeFrame_one (seq : Seq) (flag : PacketFlag) (p : List Byte) :
    byteAt (encodeFrame seq flag p) 1 = highByte seq := rfl

@[simp] theorem byteAt_encodeFrame_two (seq : Seq) (flag : PacketFlag) (p : List Byte) :
    byteAt (encodeFrame seq flag p) 2 = lowByte seq := rfl

@[simp] theorem byteAt_encodeFrame_three (seq : Seq) (flag : PacketFlag) (p : List Byte) :
    byteAt (encodeFrame seq flag p) 3 = flag.code := rfl

/-- The two bytes of a sequence number, put together again. -/
@[simp] theorem highByte_append_lowByte (seq : Seq) : highByte seq ++ lowByte seq = seq := by
  apply BitVec.eq_of_getLsbD_eq
  intro i hi
  simp only [highByte, lowByte, BitVec.getLsbD_append, BitVec.getLsbD_extractLsb']
  by_cases h : i < 8
  · simp [h]
  · have h2 : i - 8 < 8 := by omega
    have h3 : 8 + (i - 8) = i := by omega
    simp [h, h2, h3]

@[simp] theorem frameSeq_encodeFrame (seq : Seq) (flag : PacketFlag) (p : List Byte) :
    frameSeq (encodeFrame seq flag p) = seq := by
  simp [frameSeq]

@[simp] theorem passesChecksum_encodeFrame (seq : Seq) (flag : PacketFlag) (p : List Byte) :
    passesChecksum (encodeFrame seq flag p) = true := by
  simp [passesChecksum]

theorem PacketFlag.code_le (f : PacketFlag) : f.code.toNat ≤ 2 := by
  cases f <;> decide

@[simp] theorem payloadOperand_length (s : State) (len : BitVec 10) :
    (payloadOperand s len).length = len.toNat := by
  simp [payloadOperand]

@[simp] theorem frameOperand_length (s : State) : (frameOperand s).length = s.codec.cbufLen.toNat := by
  simp [frameOperand]

/-- The frame a SEND or an ENCODE builds from its operand has a legal length when its length is legal. -/
theorem encodeFrame_length_le (seq : Seq) (flag : PacketFlag) (p : List Byte) (h : p.length ≤ Config.maxPayload) :
    Config.hdrLen ≤ (encodeFrame seq flag p).length ∧ (encodeFrame seq flag p).length ≤ Config.maxFrame := by
  simp only [encodeFrame_length, Config.hdrLen, Config.maxFrame, Config.maxPayload] at *
  omega

end Sys2Proof.Machine
end

