-- ==== Sys2Proof/Laws/State.lean ====
section
/-!
SUPPORT. One lemma per field per update: what each named update of the state does to each field, true by rfl.
The updates are those of Machine/Flags, Ops, Bus and Events that have no case distinction of their own.
-/
namespace Sys2Proof.Machine

/-! ### setPending -/

@[simp] theorem setPending_st (b : BitVec 5) (s : State) : (setPending b s).st = s.st := rfl
@[simp] theorem setPending_err (b : BitVec 5) (s : State) : (setPending b s).err = s.err := rfl
@[simp] theorem setPending_irq_pending (b : BitVec 5) (s : State) : (setPending b s).irq.pending = s.irq.pending ||| b := rfl
@[simp] theorem setPending_irq_enable (b : BitVec 5) (s : State) : (setPending b s).irq.enable = s.irq.enable := rfl
@[simp] theorem setPending_cfg (b : BitVec 5) (s : State) : (setPending b s).cfg = s.cfg := rfl
@[simp] theorem setPending_sess (b : BitVec 5) (s : State) : (setPending b s).sess = s.sess := rfl
@[simp] theorem setPending_timers (b : BitVec 5) (s : State) : (setPending b s).timers = s.timers := rfl
@[simp] theorem setPending_emission (b : BitVec 5) (s : State) : (setPending b s).emission = s.emission := rfl
@[simp] theorem setPending_rxr (b : BitVec 5) (s : State) : (setPending b s).rxr = s.rxr := rfl
@[simp] theorem setPending_counters (b : BitVec 5) (s : State) : (setPending b s).counters = s.counters := rfl
@[simp] theorem setPending_codec (b : BitVec 5) (s : State) : (setPending b s).codec = s.codec := rfl
@[simp] theorem setPending_mem (b : BitVec 5) (s : State) : (setPending b s).mem = s.mem := rfl
@[simp] theorem setPending_rdata (b : BitVec 5) (s : State) : (setPending b s).rdata = s.rdata := rfl
@[simp] theorem setPending_sink (b : BitVec 5) (s : State) : (setPending b s).sink = s.sink := rfl
@[simp] theorem setPending_source (b : BitVec 5) (s : State) : (setPending b s).source = s.source := rfl
@[simp] theorem setPending_inputs (b : BitVec 5) (s : State) : (setPending b s).inputs = s.inputs := rfl
@[simp] theorem setPending_freeCount (b : BitVec 5) (s : State) : (setPending b s).freeCount = s.freeCount := rfl

/-! ### complete -/

@[simp] theorem complete_st (c : ErrCode) (s : State) : (complete c s).st = .idle := rfl
@[simp] theorem complete_err (c : ErrCode) (s : State) : (complete c s).err = c := rfl
@[simp] theorem complete_irq_pending (c : ErrCode) (s : State) : (complete c s).irq.pending = s.irq.pending ||| (if c = errOk then doneBit else doneBit ||| errBit) := rfl
@[simp] theorem complete_irq_enable (c : ErrCode) (s : State) : (complete c s).irq.enable = s.irq.enable := rfl
@[simp] theorem complete_cfg (c : ErrCode) (s : State) : (complete c s).cfg = s.cfg := rfl
@[simp] theorem complete_sess (c : ErrCode) (s : State) : (complete c s).sess = s.sess := rfl
@[simp] theorem complete_timers (c : ErrCode) (s : State) : (complete c s).timers = s.timers := rfl
@[simp] theorem complete_emission (c : ErrCode) (s : State) : (complete c s).emission = s.emission := rfl
@[simp] theorem complete_rxr (c : ErrCode) (s : State) : (complete c s).rxr = s.rxr := rfl
@[simp] theorem complete_counters (c : ErrCode) (s : State) : (complete c s).counters = s.counters := rfl
@[simp] theorem complete_codec (c : ErrCode) (s : State) : (complete c s).codec = s.codec := rfl
@[simp] theorem complete_mem (c : ErrCode) (s : State) : (complete c s).mem = s.mem := rfl
@[simp] theorem complete_rdata (c : ErrCode) (s : State) : (complete c s).rdata = s.rdata := rfl
@[simp] theorem complete_sink (c : ErrCode) (s : State) : (complete c s).sink = s.sink := rfl
@[simp] theorem complete_source (c : ErrCode) (s : State) : (complete c s).source = s.source := rfl
@[simp] theorem complete_inputs (c : ErrCode) (s : State) : (complete c s).inputs = s.inputs := rfl
@[simp] theorem complete_freeCount (c : ErrCode) (s : State) : (complete c s).freeCount = s.freeCount := rfl

/-! ### overrun -/

@[simp] theorem overrun_st (s : State) : (overrun s).st = s.st := rfl
@[simp] theorem overrun_err (s : State) : (overrun s).err = s.err := rfl
@[simp] theorem overrun_irq_pending (s : State) : (overrun s).irq.pending = s.irq.pending ||| overrunBit := rfl
@[simp] theorem overrun_irq_enable (s : State) : (overrun s).irq.enable = s.irq.enable := rfl
@[simp] theorem overrun_cfg (s : State) : (overrun s).cfg = s.cfg := rfl
@[simp] theorem overrun_sess (s : State) : (overrun s).sess = s.sess := rfl
@[simp] theorem overrun_timers (s : State) : (overrun s).timers = s.timers := rfl
@[simp] theorem overrun_emission (s : State) : (overrun s).emission = s.emission := rfl
@[simp] theorem overrun_rxr (s : State) : (overrun s).rxr = s.rxr := rfl
@[simp] theorem overrun_counters (s : State) : (overrun s).counters = s.counters := rfl
@[simp] theorem overrun_codec (s : State) : (overrun s).codec = s.codec := rfl
@[simp] theorem overrun_mem (s : State) : (overrun s).mem = s.mem := rfl
@[simp] theorem overrun_rdata (s : State) : (overrun s).rdata = s.rdata := rfl
@[simp] theorem overrun_sink (s : State) : (overrun s).sink = s.sink := rfl
@[simp] theorem overrun_source (s : State) : (overrun s).source = s.source := rfl
@[simp] theorem overrun_inputs (s : State) : (overrun s).inputs = s.inputs := rfl
@[simp] theorem overrun_freeCount (s : State) : (overrun s).freeCount = s.freeCount := rfl

/-! ### ignoreWrite -/

@[simp] theorem ignoreWrite_st (s : State) : (ignoreWrite s).st = s.st := rfl
@[simp] theorem ignoreWrite_err (s : State) : (ignoreWrite s).err = s.err := rfl
@[simp] theorem ignoreWrite_irq_pending (s : State) : (ignoreWrite s).irq.pending = s.irq.pending ||| wrIgnoredBit := rfl
@[simp] theorem ignoreWrite_irq_enable (s : State) : (ignoreWrite s).irq.enable = s.irq.enable := rfl
@[simp] theorem ignoreWrite_cfg (s : State) : (ignoreWrite s).cfg = s.cfg := rfl
@[simp] theorem ignoreWrite_sess (s : State) : (ignoreWrite s).sess = s.sess := rfl
@[simp] theorem ignoreWrite_timers (s : State) : (ignoreWrite s).timers = s.timers := rfl
@[simp] theorem ignoreWrite_emission (s : State) : (ignoreWrite s).emission = s.emission := rfl
@[simp] theorem ignoreWrite_rxr (s : State) : (ignoreWrite s).rxr = s.rxr := rfl
@[simp] theorem ignoreWrite_counters (s : State) : (ignoreWrite s).counters = s.counters := rfl
@[simp] theorem ignoreWrite_codec (s : State) : (ignoreWrite s).codec = s.codec := rfl
@[simp] theorem ignoreWrite_mem (s : State) : (ignoreWrite s).mem = s.mem := rfl
@[simp] theorem ignoreWrite_rdata (s : State) : (ignoreWrite s).rdata = s.rdata := rfl
@[simp] theorem ignoreWrite_sink (s : State) : (ignoreWrite s).sink = s.sink := rfl
@[simp] theorem ignoreWrite_source (s : State) : (ignoreWrite s).source = s.source := rfl
@[simp] theorem ignoreWrite_inputs (s : State) : (ignoreWrite s).inputs = s.inputs := rfl
@[simp] theorem ignoreWrite_freeCount (s : State) : (ignoreWrite s).freeCount = s.freeCount := rfl

/-! ### startAttempt -/

@[simp] theorem startAttempt_st (s : State) : (startAttempt s).st = .waitAck := rfl
@[simp] theorem startAttempt_err (s : State) : (startAttempt s).err = s.err := rfl
@[simp] theorem startAttempt_irq (s : State) : (startAttempt s).irq = s.irq := rfl
@[simp] theorem startAttempt_cfg (s : State) : (startAttempt s).cfg = s.cfg := rfl
@[simp] theorem startAttempt_sess (s : State) : (startAttempt s).sess = s.sess := rfl
@[simp] theorem startAttempt_timers_attemptCnt (s : State) : (startAttempt s).timers.attemptCnt = 0#16 := rfl
@[simp] theorem startAttempt_timers_sessionCnt (s : State) : (startAttempt s).timers.sessionCnt = s.timers.sessionCnt := rfl
@[simp] theorem startAttempt_emission (s : State) : (startAttempt s).emission = s.emission := rfl
@[simp] theorem startAttempt_rxr (s : State) : (startAttempt s).rxr = s.rxr := rfl
@[simp] theorem startAttempt_counters (s : State) : (startAttempt s).counters = s.counters := rfl
@[simp] theorem startAttempt_codec (s : State) : (startAttempt s).codec = s.codec := rfl
@[simp] theorem startAttempt_mem (s : State) : (startAttempt s).mem = s.mem := rfl
@[simp] theorem startAttempt_rdata (s : State) : (startAttempt s).rdata = s.rdata := rfl
@[simp] theorem startAttempt_sink (s : State) : (startAttempt s).sink = s.sink := rfl
@[simp] theorem startAttempt_source (s : State) : (startAttempt s).source = s.source := rfl
@[simp] theorem startAttempt_inputs (s : State) : (startAttempt s).inputs = s.inputs := rfl
@[simp] theorem startAttempt_freeCount (s : State) : (startAttempt s).freeCount = s.freeCount := rfl

/-! ### push -/

@[simp] theorem push_st (f : Frame) (k : TxCont) (s : State) : (push f k s).st = .tx := rfl
@[simp] theorem push_err (f : Frame) (k : TxCont) (s : State) : (push f k s).err = s.err := rfl
@[simp] theorem push_irq (f : Frame) (k : TxCont) (s : State) : (push f k s).irq = s.irq := rfl
@[simp] theorem push_cfg (f : Frame) (k : TxCont) (s : State) : (push f k s).cfg = s.cfg := rfl
@[simp] theorem push_sess_fifo (f : Frame) (k : TxCont) (s : State) : (push f k s).sess.fifo = s.sess.fifo ++ [f] := rfl
@[simp] theorem push_sess_nextSeq (f : Frame) (k : TxCont) (s : State) : (push f k s).sess.nextSeq = s.sess.nextSeq + 1#16 := rfl
@[simp] theorem push_sess_lastSent (f : Frame) (k : TxCont) (s : State) : (push f k s).sess.lastSent = (if s.sess.curFlag = .last then true else s.sess.lastSent) := rfl
@[simp] theorem push_sess_failed (f : Frame) (k : TxCont) (s : State) : (push f k s).sess.failed = s.sess.failed := rfl
@[simp] theorem push_sess_curFlag (f : Frame) (k : TxCont) (s : State) : (push f k s).sess.curFlag = s.sess.curFlag := rfl
@[simp] theorem push_sess_cfgLocked (f : Frame) (k : TxCont) (s : State) : (push f k s).sess.cfgLocked = s.sess.cfgLocked := rfl
@[simp] theorem push_sess_pending (f : Frame) (k : TxCont) (s : State) : (push f k s).sess.pending = s.sess.pending := rfl
@[simp] theorem push_sess_inFlight (f : Frame) (k : TxCont) (s : State) : (push f k s).sess.inFlight = s.sess.inFlight := rfl
@[simp] theorem push_sess_oldestSeq (f : Frame) (k : TxCont) (s : State) : (push f k s).sess.oldestSeq = s.sess.oldestSeq := rfl
@[simp] theorem push_timers_sessionCnt (f : Frame) (k : TxCont) (s : State) : (push f k s).timers.sessionCnt = (if s.sess.fifo = [] then 0#16 else s.timers.sessionCnt) := rfl
@[simp] theorem push_timers_attemptCnt (f : Frame) (k : TxCont) (s : State) : (push f k s).timers.attemptCnt = s.timers.attemptCnt := rfl
@[simp] theorem push_emission (f : Frame) (k : TxCont) (s : State) : (push f k s).emission = ⟨[f], 0, k⟩ := rfl
@[simp] theorem push_rxr (f : Frame) (k : TxCont) (s : State) : (push f k s).rxr = s.rxr := rfl
@[simp] theorem push_counters (f : Frame) (k : TxCont) (s : State) : (push f k s).counters = s.counters := rfl
@[simp] theorem push_codec (f : Frame) (k : TxCont) (s : State) : (push f k s).codec = s.codec := rfl
@[simp] theorem push_mem (f : Frame) (k : TxCont) (s : State) : (push f k s).mem = s.mem := rfl
@[simp] theorem push_rdata (f : Frame) (k : TxCont) (s : State) : (push f k s).rdata = s.rdata := rfl
@[simp] theorem push_sink (f : Frame) (k : TxCont) (s : State) : (push f k s).sink = s.sink := rfl
@[simp] theorem push_source (f : Frame) (k : TxCont) (s : State) : (push f k s).source = s.source := rfl
@[simp] theorem push_inputs (f : Frame) (k : TxCont) (s : State) : (push f k s).inputs = s.inputs := rfl
@[simp] theorem push_freeCount (f : Frame) (k : TxCont) (s : State) : (push f k s).freeCount = s.freeCount := rfl

/-! ### loadSend -/

@[simp] theorem loadSend_st (g : PacketFlag) (n : BitVec 10) (s : State) : (loadSend g n s).st = s.st := rfl
@[simp] theorem loadSend_err (g : PacketFlag) (n : BitVec 10) (s : State) : (loadSend g n s).err = errOk := rfl
@[simp] theorem loadSend_irq (g : PacketFlag) (n : BitVec 10) (s : State) : (loadSend g n s).irq = s.irq := rfl
@[simp] theorem loadSend_cfg (g : PacketFlag) (n : BitVec 10) (s : State) : (loadSend g n s).cfg = s.cfg := rfl
@[simp] theorem loadSend_sess_curFlag (g : PacketFlag) (n : BitVec 10) (s : State) : (loadSend g n s).sess.curFlag = g := rfl
@[simp] theorem loadSend_sess_cfgLocked (g : PacketFlag) (n : BitVec 10) (s : State) : (loadSend g n s).sess.cfgLocked = true := rfl
@[simp] theorem loadSend_sess_lastSent (g : PacketFlag) (n : BitVec 10) (s : State) : (loadSend g n s).sess.lastSent = false := rfl
@[simp] theorem loadSend_sess_inFlight (g : PacketFlag) (n : BitVec 10) (s : State) : (loadSend g n s).sess.inFlight = BitVec.ofNat 18 s.fifoLen := rfl
@[simp] theorem loadSend_sess_pending (g : PacketFlag) (n : BitVec 10) (s : State) : (loadSend g n s).sess.pending = encodeFrame s.sess.nextSeq g (payloadOperand s n) := rfl
@[simp] theorem loadSend_sess_oldestSeq (g : PacketFlag) (n : BitVec 10) (s : State) : (loadSend g n s).sess.oldestSeq = s.sess.nextSeq - (BitVec.ofNat 18 s.fifoLen).setWidth 16 := rfl
@[simp] theorem loadSend_sess_failed (g : PacketFlag) (n : BitVec 10) (s : State) : (loadSend g n s).sess.failed = s.sess.failed := rfl
@[simp] theorem loadSend_sess_nextSeq (g : PacketFlag) (n : BitVec 10) (s : State) : (loadSend g n s).sess.nextSeq = s.sess.nextSeq := rfl
@[simp] theorem loadSend_sess_fifo (g : PacketFlag) (n : BitVec 10) (s : State) : (loadSend g n s).sess.fifo = s.sess.fifo := rfl
@[simp] theorem loadSend_timers (g : PacketFlag) (n : BitVec 10) (s : State) : (loadSend g n s).timers = s.timers := rfl
@[simp] theorem loadSend_emission (g : PacketFlag) (n : BitVec 10) (s : State) : (loadSend g n s).emission = s.emission := rfl
@[simp] theorem loadSend_rxr (g : PacketFlag) (n : BitVec 10) (s : State) : (loadSend g n s).rxr = s.rxr := rfl
@[simp] theorem loadSend_counters (g : PacketFlag) (n : BitVec 10) (s : State) : (loadSend g n s).counters = s.counters := rfl
@[simp] theorem loadSend_codec (g : PacketFlag) (n : BitVec 10) (s : State) : (loadSend g n s).codec = s.codec := rfl
@[simp] theorem loadSend_mem (g : PacketFlag) (n : BitVec 10) (s : State) : (loadSend g n s).mem = s.mem := rfl
@[simp] theorem loadSend_rdata (g : PacketFlag) (n : BitVec 10) (s : State) : (loadSend g n s).rdata = s.rdata := rfl
@[simp] theorem loadSend_sink (g : PacketFlag) (n : BitVec 10) (s : State) : (loadSend g n s).sink = s.sink := rfl
@[simp] theorem loadSend_source (g : PacketFlag) (n : BitVec 10) (s : State) : (loadSend g n s).source = s.source := rfl
@[simp] theorem loadSend_inputs (g : PacketFlag) (n : BitVec 10) (s : State) : (loadSend g n s).inputs = s.inputs := rfl
@[simp] theorem loadSend_freeCount (g : PacketFlag) (n : BitVec 10) (s : State) : (loadSend g n s).freeCount = s.freeCount := rfl

/-! ### acceptEncode -/

@[simp] theorem acceptEncode_st (g : PacketFlag) (n : BitVec 10) (q : Seq) (s : State) : (acceptEncode g n q s).st = .codec := rfl
@[simp] theorem acceptEncode_err (g : PacketFlag) (n : BitVec 10) (q : Seq) (s : State) : (acceptEncode g n q s).err = errOk := rfl
@[simp] theorem acceptEncode_irq (g : PacketFlag) (n : BitVec 10) (q : Seq) (s : State) : (acceptEncode g n q s).irq = s.irq := rfl
@[simp] theorem acceptEncode_cfg (g : PacketFlag) (n : BitVec 10) (q : Seq) (s : State) : (acceptEncode g n q s).cfg = s.cfg := rfl
@[simp] theorem acceptEncode_sess (g : PacketFlag) (n : BitVec 10) (q : Seq) (s : State) : (acceptEncode g n q s).sess = s.sess := rfl
@[simp] theorem acceptEncode_timers (g : PacketFlag) (n : BitVec 10) (q : Seq) (s : State) : (acceptEncode g n q s).timers = s.timers := rfl
@[simp] theorem acceptEncode_emission (g : PacketFlag) (n : BitVec 10) (q : Seq) (s : State) : (acceptEncode g n q s).emission = s.emission := rfl
@[simp] theorem acceptEncode_rxr (g : PacketFlag) (n : BitVec 10) (q : Seq) (s : State) : (acceptEncode g n q s).rxr = s.rxr := rfl
@[simp] theorem acceptEncode_counters (g : PacketFlag) (n : BitVec 10) (q : Seq) (s : State) : (acceptEncode g n q s).counters = s.counters := rfl
@[simp] theorem acceptEncode_codec_job (g : PacketFlag) (n : BitVec 10) (q : Seq) (s : State) : (acceptEncode g n q s).codec.job = some (.encode (encodeFrame q g (payloadOperand s n))) := rfl
@[simp] theorem acceptEncode_codec_cbufLen (g : PacketFlag) (n : BitVec 10) (q : Seq) (s : State) : (acceptEncode g n q s).codec.cbufLen = s.codec.cbufLen := rfl
@[simp] theorem acceptEncode_codec_decResult (g : PacketFlag) (n : BitVec 10) (q : Seq) (s : State) : (acceptEncode g n q s).codec.decResult = s.codec.decResult := rfl
@[simp] theorem acceptEncode_codec_decSeq (g : PacketFlag) (n : BitVec 10) (q : Seq) (s : State) : (acceptEncode g n q s).codec.decSeq = s.codec.decSeq := rfl
@[simp] theorem acceptEncode_mem (g : PacketFlag) (n : BitVec 10) (q : Seq) (s : State) : (acceptEncode g n q s).mem = s.mem := rfl
@[simp] theorem acceptEncode_rdata (g : PacketFlag) (n : BitVec 10) (q : Seq) (s : State) : (acceptEncode g n q s).rdata = s.rdata := rfl
@[simp] theorem acceptEncode_sink (g : PacketFlag) (n : BitVec 10) (q : Seq) (s : State) : (acceptEncode g n q s).sink = s.sink := rfl
@[simp] theorem acceptEncode_source (g : PacketFlag) (n : BitVec 10) (q : Seq) (s : State) : (acceptEncode g n q s).source = s.source := rfl
@[simp] theorem acceptEncode_inputs (g : PacketFlag) (n : BitVec 10) (q : Seq) (s : State) : (acceptEncode g n q s).inputs = s.inputs := rfl
@[simp] theorem acceptEncode_freeCount (g : PacketFlag) (n : BitVec 10) (q : Seq) (s : State) : (acceptEncode g n q s).freeCount = s.freeCount := rfl

/-! ### acceptDecode -/

@[simp] theorem acceptDecode_st (s : State) : (acceptDecode s).st = .codec := rfl
@[simp] theorem acceptDecode_err (s : State) : (acceptDecode s).err = errOk := rfl
@[simp] theorem acceptDecode_irq (s : State) : (acceptDecode s).irq = s.irq := rfl
@[simp] theorem acceptDecode_cfg (s : State) : (acceptDecode s).cfg = s.cfg := rfl
@[simp] theorem acceptDecode_sess (s : State) : (acceptDecode s).sess = s.sess := rfl
@[simp] theorem acceptDecode_timers (s : State) : (acceptDecode s).timers = s.timers := rfl
@[simp] theorem acceptDecode_emission (s : State) : (acceptDecode s).emission = s.emission := rfl
@[simp] theorem acceptDecode_rxr (s : State) : (acceptDecode s).rxr = s.rxr := rfl
@[simp] theorem acceptDecode_counters (s : State) : (acceptDecode s).counters = s.counters := rfl
@[simp] theorem acceptDecode_codec_job (s : State) : (acceptDecode s).codec.job = some (.decode (decResultWord (frameOperand s)) (decSeqWord (frameOperand s))) := rfl
@[simp] theorem acceptDecode_codec_cbufLen (s : State) : (acceptDecode s).codec.cbufLen = s.codec.cbufLen := rfl
@[simp] theorem acceptDecode_codec_decResult (s : State) : (acceptDecode s).codec.decResult = s.codec.decResult := rfl
@[simp] theorem acceptDecode_codec_decSeq (s : State) : (acceptDecode s).codec.decSeq = s.codec.decSeq := rfl
@[simp] theorem acceptDecode_mem (s : State) : (acceptDecode s).mem = s.mem := rfl
@[simp] theorem acceptDecode_rdata (s : State) : (acceptDecode s).rdata = s.rdata := rfl
@[simp] theorem acceptDecode_sink (s : State) : (acceptDecode s).sink = s.sink := rfl
@[simp] theorem acceptDecode_source (s : State) : (acceptDecode s).source = s.source := rfl
@[simp] theorem acceptDecode_inputs (s : State) : (acceptDecode s).inputs = s.inputs := rfl
@[simp] theorem acceptDecode_freeCount (s : State) : (acceptDecode s).freeCount = s.freeCount := rfl

/-! ### tickTimers -/

@[simp] theorem tickTimers_st (s : State) : (tickTimers s).st = s.st := rfl
@[simp] theorem tickTimers_err (s : State) : (tickTimers s).err = s.err := rfl
@[simp] theorem tickTimers_irq (s : State) : (tickTimers s).irq = s.irq := rfl
@[simp] theorem tickTimers_cfg (s : State) : (tickTimers s).cfg = s.cfg := rfl
@[simp] theorem tickTimers_sess (s : State) : (tickTimers s).sess = s.sess := rfl
@[simp] theorem tickTimers_timers_sessionCnt (s : State) : (tickTimers s).timers.sessionCnt = satSucc s.timers.sessionCnt := rfl
@[simp] theorem tickTimers_timers_attemptCnt (s : State) : (tickTimers s).timers.attemptCnt = (if s.rxReady then satSucc s.timers.attemptCnt else s.timers.attemptCnt) := rfl
@[simp] theorem tickTimers_emission (s : State) : (tickTimers s).emission = s.emission := rfl
@[simp] theorem tickTimers_rxr (s : State) : (tickTimers s).rxr = s.rxr := rfl
@[simp] theorem tickTimers_counters (s : State) : (tickTimers s).counters = s.counters := rfl
@[simp] theorem tickTimers_codec (s : State) : (tickTimers s).codec = s.codec := rfl
@[simp] theorem tickTimers_mem (s : State) : (tickTimers s).mem = s.mem := rfl
@[simp] theorem tickTimers_rdata (s : State) : (tickTimers s).rdata = s.rdata := rfl
@[simp] theorem tickTimers_sink (s : State) : (tickTimers s).sink = s.sink := rfl
@[simp] theorem tickTimers_source (s : State) : (tickTimers s).source = s.source := rfl
@[simp] theorem tickTimers_inputs (s : State) : (tickTimers s).inputs = s.inputs := rfl
@[simp] theorem tickTimers_freeCount (s : State) : (tickTimers s).freeCount = s.freeCount := rfl

/-! ### dropAcked -/

@[simp] theorem dropAcked_st (q : Seq) (s : State) : (dropAcked q s).st = s.st := rfl
@[simp] theorem dropAcked_err (q : Seq) (s : State) : (dropAcked q s).err = s.err := rfl
@[simp] theorem dropAcked_irq (q : Seq) (s : State) : (dropAcked q s).irq = s.irq := rfl
@[simp] theorem dropAcked_cfg (q : Seq) (s : State) : (dropAcked q s).cfg = s.cfg := rfl
@[simp] theorem dropAcked_sess_fifo (q : Seq) (s : State) : (dropAcked q s).sess.fifo = s.sess.fifo.drop (ackCountOf q s.sess.oldestSeq).toNat := rfl
@[simp] theorem dropAcked_sess_inFlight (q : Seq) (s : State) : (dropAcked q s).sess.inFlight = s.sess.inFlight - (ackCountOf q s.sess.oldestSeq).setWidth 18 := rfl
@[simp] theorem dropAcked_sess_oldestSeq (q : Seq) (s : State) : (dropAcked q s).sess.oldestSeq = s.sess.oldestSeq + ackCountOf q s.sess.oldestSeq := rfl
@[simp] theorem dropAcked_sess_failed (q : Seq) (s : State) : (dropAcked q s).sess.failed = s.sess.failed := rfl
@[simp] theorem dropAcked_sess_curFlag (q : Seq) (s : State) : (dropAcked q s).sess.curFlag = s.sess.curFlag := rfl
@[simp] theorem dropAcked_sess_lastSent (q : Seq) (s : State) : (dropAcked q s).sess.lastSent = s.sess.lastSent := rfl
@[simp] theorem dropAcked_sess_cfgLocked (q : Seq) (s : State) : (dropAcked q s).sess.cfgLocked = s.sess.cfgLocked := rfl
@[simp] theorem dropAcked_sess_pending (q : Seq) (s : State) : (dropAcked q s).sess.pending = s.sess.pending := rfl
@[simp] theorem dropAcked_sess_nextSeq (q : Seq) (s : State) : (dropAcked q s).sess.nextSeq = s.sess.nextSeq := rfl
@[simp] theorem dropAcked_timers_attemptCnt (q : Seq) (s : State) : (dropAcked q s).timers.attemptCnt = s.timers.attemptCnt := rfl
@[simp] theorem dropAcked_timers_sessionCnt (q : Seq) (s : State) : (dropAcked q s).timers.sessionCnt = (if s.sess.fifo.drop (ackCountOf q s.sess.oldestSeq).toNat = [] then s.timers.sessionCnt else 0#16) := rfl
@[simp] theorem dropAcked_emission (q : Seq) (s : State) : (dropAcked q s).emission = s.emission := rfl
@[simp] theorem dropAcked_rxr (q : Seq) (s : State) : (dropAcked q s).rxr = s.rxr := rfl
@[simp] theorem dropAcked_counters (q : Seq) (s : State) : (dropAcked q s).counters = s.counters := rfl
@[simp] theorem dropAcked_codec (q : Seq) (s : State) : (dropAcked q s).codec = s.codec := rfl
@[simp] theorem dropAcked_mem (q : Seq) (s : State) : (dropAcked q s).mem = s.mem := rfl
@[simp] theorem dropAcked_rdata (q : Seq) (s : State) : (dropAcked q s).rdata = s.rdata := rfl
@[simp] theorem dropAcked_sink (q : Seq) (s : State) : (dropAcked q s).sink = s.sink := rfl
@[simp] theorem dropAcked_source (q : Seq) (s : State) : (dropAcked q s).source = s.source := rfl
@[simp] theorem dropAcked_inputs (q : Seq) (s : State) : (dropAcked q s).inputs = s.inputs := rfl
@[simp] theorem dropAcked_freeCount (q : Seq) (s : State) : (dropAcked q s).freeCount = s.freeCount := rfl

/-! ### giveupFatal -/

@[simp] theorem giveupFatal_st (s : State) : (giveupFatal s).st = .idle := rfl
@[simp] theorem giveupFatal_err (s : State) : (giveupFatal s).err = errGiveup := rfl
@[simp] theorem giveupFatal_irq_pending (s : State) : (giveupFatal s).irq.pending = s.irq.pending ||| (doneBit ||| errBit) := rfl
@[simp] theorem giveupFatal_irq_enable (s : State) : (giveupFatal s).irq.enable = s.irq.enable := rfl
@[simp] theorem giveupFatal_cfg (s : State) : (giveupFatal s).cfg = s.cfg := rfl
@[simp] theorem giveupFatal_sess_failed (s : State) : (giveupFatal s).sess.failed = true := rfl
@[simp] theorem giveupFatal_sess_curFlag (s : State) : (giveupFatal s).sess.curFlag = s.sess.curFlag := rfl
@[simp] theorem giveupFatal_sess_lastSent (s : State) : (giveupFatal s).sess.lastSent = s.sess.lastSent := rfl
@[simp] theorem giveupFatal_sess_cfgLocked (s : State) : (giveupFatal s).sess.cfgLocked = s.sess.cfgLocked := rfl
@[simp] theorem giveupFatal_sess_pending (s : State) : (giveupFatal s).sess.pending = s.sess.pending := rfl
@[simp] theorem giveupFatal_sess_nextSeq (s : State) : (giveupFatal s).sess.nextSeq = s.sess.nextSeq := rfl
@[simp] theorem giveupFatal_sess_inFlight (s : State) : (giveupFatal s).sess.inFlight = s.sess.inFlight := rfl
@[simp] theorem giveupFatal_sess_oldestSeq (s : State) : (giveupFatal s).sess.oldestSeq = s.sess.oldestSeq := rfl
@[simp] theorem giveupFatal_sess_fifo (s : State) : (giveupFatal s).sess.fifo = s.sess.fifo := rfl
@[simp] theorem giveupFatal_timers (s : State) : (giveupFatal s).timers = s.timers := rfl
@[simp] theorem giveupFatal_emission (s : State) : (giveupFatal s).emission = s.emission := rfl
@[simp] theorem giveupFatal_rxr (s : State) : (giveupFatal s).rxr = s.rxr := rfl
@[simp] theorem giveupFatal_counters (s : State) : (giveupFatal s).counters = s.counters := rfl
@[simp] theorem giveupFatal_codec (s : State) : (giveupFatal s).codec = s.codec := rfl
@[simp] theorem giveupFatal_mem (s : State) : (giveupFatal s).mem = s.mem := rfl
@[simp] theorem giveupFatal_rdata (s : State) : (giveupFatal s).rdata = s.rdata := rfl
@[simp] theorem giveupFatal_sink (s : State) : (giveupFatal s).sink = s.sink := rfl
@[simp] theorem giveupFatal_source (s : State) : (giveupFatal s).source = s.source := rfl
@[simp] theorem giveupFatal_inputs (s : State) : (giveupFatal s).inputs = s.inputs := rfl
@[simp] theorem giveupFatal_freeCount (s : State) : (giveupFatal s).freeCount = s.freeCount := rfl

/-! ### giveupDrop -/

@[simp] theorem giveupDrop_st (s : State) : (giveupDrop s).st = .idle := rfl
@[simp] theorem giveupDrop_err (s : State) : (giveupDrop s).err = errGiveupDropped := rfl
@[simp] theorem giveupDrop_irq_pending (s : State) : (giveupDrop s).irq.pending = s.irq.pending ||| (doneBit ||| errBit) := rfl
@[simp] theorem giveupDrop_irq_enable (s : State) : (giveupDrop s).irq.enable = s.irq.enable := rfl
@[simp] theorem giveupDrop_cfg (s : State) : (giveupDrop s).cfg = s.cfg := rfl
@[simp] theorem giveupDrop_sess_fifo (s : State) : (giveupDrop s).sess.fifo = [] := rfl
@[simp] theorem giveupDrop_sess_nextSeq (s : State) : (giveupDrop s).sess.nextSeq = 0#16 := rfl
@[simp] theorem giveupDrop_sess_oldestSeq (s : State) : (giveupDrop s).sess.oldestSeq = 0#16 := rfl
@[simp] theorem giveupDrop_sess_inFlight (s : State) : (giveupDrop s).sess.inFlight = 0#18 := rfl
@[simp] theorem giveupDrop_sess_lastSent (s : State) : (giveupDrop s).sess.lastSent = false := rfl
@[simp] theorem giveupDrop_sess_cfgLocked (s : State) : (giveupDrop s).sess.cfgLocked = false := rfl
@[simp] theorem giveupDrop_sess_failed (s : State) : (giveupDrop s).sess.failed = s.sess.failed := rfl
@[simp] theorem giveupDrop_sess_curFlag (s : State) : (giveupDrop s).sess.curFlag = s.sess.curFlag := rfl
@[simp] theorem giveupDrop_sess_pending (s : State) : (giveupDrop s).sess.pending = s.sess.pending := rfl
@[simp] theorem giveupDrop_timers_sessionCnt (s : State) : (giveupDrop s).timers.sessionCnt = 0#16 := rfl
@[simp] theorem giveupDrop_timers_attemptCnt (s : State) : (giveupDrop s).timers.attemptCnt = s.timers.attemptCnt := rfl
@[simp] theorem giveupDrop_emission (s : State) : (giveupDrop s).emission = s.emission := rfl
@[simp] theorem giveupDrop_rxr (s : State) : (giveupDrop s).rxr = s.rxr := rfl
@[simp] theorem giveupDrop_counters (s : State) : (giveupDrop s).counters = s.counters := rfl
@[simp] theorem giveupDrop_codec (s : State) : (giveupDrop s).codec = s.codec := rfl
@[simp] theorem giveupDrop_mem (s : State) : (giveupDrop s).mem = s.mem := rfl
@[simp] theorem giveupDrop_rdata (s : State) : (giveupDrop s).rdata = s.rdata := rfl
@[simp] theorem giveupDrop_sink (s : State) : (giveupDrop s).sink = s.sink := rfl
@[simp] theorem giveupDrop_source (s : State) : (giveupDrop s).source = s.source := rfl
@[simp] theorem giveupDrop_inputs (s : State) : (giveupDrop s).inputs = s.inputs := rfl
@[simp] theorem giveupDrop_freeCount (s : State) : (giveupDrop s).freeCount = s.freeCount := rfl

/-! ### resetBlock: what it takes from the state before -/

@[simp] theorem resetBlock_st (s : State) : (resetBlock s).st = .idle := rfl
@[simp] theorem resetBlock_err (s : State) : (resetBlock s).err = 0#4 := rfl
@[simp] theorem resetBlock_irq (s : State) : (resetBlock s).irq = State.reset.irq := rfl
@[simp] theorem resetBlock_cfg (s : State) :
    (resetBlock s).cfg = { State.reset.cfg with wmax := s.cfg.wmax } := rfl
@[simp] theorem resetBlock_sess (s : State) : (resetBlock s).sess = State.reset.sess := rfl
@[simp] theorem resetBlock_timers (s : State) : (resetBlock s).timers = State.reset.timers := rfl
@[simp] theorem resetBlock_emission (s : State) : (resetBlock s).emission = State.reset.emission := rfl
@[simp] theorem resetBlock_rxr (s : State) : (resetBlock s).rxr = State.reset.rxr := rfl
@[simp] theorem resetBlock_counters (s : State) : (resetBlock s).counters = State.reset.counters := rfl
@[simp] theorem resetBlock_codec (s : State) : (resetBlock s).codec = State.reset.codec := rfl
@[simp] theorem resetBlock_mem (s : State) : (resetBlock s).mem = abandonedMem s := rfl
@[simp] theorem resetBlock_rdata (s : State) : (resetBlock s).rdata = s.rdata := rfl
@[simp] theorem resetBlock_sink (s : State) : (resetBlock s).sink = { s.sink with part := [] } := rfl
@[simp] theorem resetBlock_source (s : State) : (resetBlock s).source = { s.source with rest := [] } := rfl
@[simp] theorem resetBlock_inputs (s : State) : (resetBlock s).inputs = s.inputs := rfl
@[simp] theorem resetBlock_freeCount (s : State) :
    (resetBlock s).freeCount = if s.encoding?.isSome then s.freeCount + 1 else s.freeCount := rfl

/-! ### hostRead -/

@[simp] theorem hostRead_st (a : BitVec 12) (s : State) : (hostRead a s).st = s.st := rfl
@[simp] theorem hostRead_err (a : BitVec 12) (s : State) : (hostRead a s).err = s.err := rfl
@[simp] theorem hostRead_irq (a : BitVec 12) (s : State) : (hostRead a s).irq = s.irq := rfl
@[simp] theorem hostRead_cfg (a : BitVec 12) (s : State) : (hostRead a s).cfg = s.cfg := rfl
@[simp] theorem hostRead_sess (a : BitVec 12) (s : State) : (hostRead a s).sess = s.sess := rfl
@[simp] theorem hostRead_timers (a : BitVec 12) (s : State) : (hostRead a s).timers = s.timers := rfl
@[simp] theorem hostRead_emission (a : BitVec 12) (s : State) : (hostRead a s).emission = s.emission := rfl
@[simp] theorem hostRead_rxr (a : BitVec 12) (s : State) : (hostRead a s).rxr = s.rxr := rfl
@[simp] theorem hostRead_counters (a : BitVec 12) (s : State) : (hostRead a s).counters = s.counters := rfl
@[simp] theorem hostRead_codec (a : BitVec 12) (s : State) : (hostRead a s).codec = s.codec := rfl
@[simp] theorem hostRead_mem (a : BitVec 12) (s : State) : (hostRead a s).mem = s.mem := rfl
@[simp] theorem hostRead_rdata (a : BitVec 12) (s : State) : (hostRead a s).rdata = readValue s (target a) := rfl
@[simp] theorem hostRead_sink (a : BitVec 12) (s : State) : (hostRead a s).sink = s.sink := rfl
@[simp] theorem hostRead_source (a : BitVec 12) (s : State) : (hostRead a s).source = s.source := rfl
@[simp] theorem hostRead_inputs (a : BitVec 12) (s : State) : (hostRead a s).inputs = s.inputs := rfl
@[simp] theorem hostRead_freeCount (a : BitVec 12) (s : State) : (hostRead a s).freeCount = (if drawsFree s (target a) then s.freeCount + 1 else s.freeCount) := rfl

/-! ### freeRdata -/

@[simp] theorem freeRdata_st (s : State) : (freeRdata s).st = s.st := rfl
@[simp] theorem freeRdata_err (s : State) : (freeRdata s).err = s.err := rfl
@[simp] theorem freeRdata_irq (s : State) : (freeRdata s).irq = s.irq := rfl
@[simp] theorem freeRdata_cfg (s : State) : (freeRdata s).cfg = s.cfg := rfl
@[simp] theorem freeRdata_sess (s : State) : (freeRdata s).sess = s.sess := rfl
@[simp] theorem freeRdata_timers (s : State) : (freeRdata s).timers = s.timers := rfl
@[simp] theorem freeRdata_emission (s : State) : (freeRdata s).emission = s.emission := rfl
@[simp] theorem freeRdata_rxr (s : State) : (freeRdata s).rxr = s.rxr := rfl
@[simp] theorem freeRdata_counters (s : State) : (freeRdata s).counters = s.counters := rfl
@[simp] theorem freeRdata_codec (s : State) : (freeRdata s).codec = s.codec := rfl
@[simp] theorem freeRdata_mem (s : State) : (freeRdata s).mem = s.mem := rfl
@[simp] theorem freeRdata_rdata (s : State) : (freeRdata s).rdata = Config.bothStrobesData s.freeCount := rfl
@[simp] theorem freeRdata_sink (s : State) : (freeRdata s).sink = s.sink := rfl
@[simp] theorem freeRdata_source (s : State) : (freeRdata s).source = s.source := rfl
@[simp] theorem freeRdata_inputs (s : State) : (freeRdata s).inputs = s.inputs := rfl
@[simp] theorem freeRdata_freeCount (s : State) : (freeRdata s).freeCount = s.freeCount + 1 := rfl

end Sys2Proof.Machine
end

