-- ==== Sys2Proof/Laws/Ops.lean ====
section
/-!
SUPPORT. One specification lemma per shared operation: everything it can do, said once, so that no proof has to
unfold it again.
-/
namespace Sys2Proof.Machine

@[simp] theorem busy_eq_false_iff (s : State) : s.busy = false ↔ s.st = .idle := by
  simp [State.busy]

@[simp] theorem busy_eq_true_iff (s : State) : s.busy = true ↔ s.st ≠ .idle := by
  simp [State.busy]

@[simp] theorem rxReady_eq_true_iff (s : State) : s.rxReady = true ↔ s.st = .waitAck ∨ s.st = .rx := by
  simp [State.rxReady]

@[simp] theorem emitting_eq_true_iff (s : State) : s.emitting = true ↔ s.st = .tx ∨ s.st = .retx := by
  simp [State.emitting]

@[simp] theorem emitting_eq_false_iff (s : State) : s.emitting = false ↔ s.st ≠ .tx ∧ s.st ≠ .retx := by
  simp [State.emitting]

/-- A fault state is one of 93 U15, U16; every other state is legal. -/
theorem illegal?_eq_none_iff (s : State) :
    s.illegal? = none ↔ s.st ≠ .code6 ∧ s.st ≠ .code7 ∧ s.err.toNat ≤ 8 := by
  unfold State.illegal?
  by_cases h1 : s.st = .code6 ∨ s.st = .code7
  · simp only [h1, if_true, reduceCtorEq, false_iff, not_and]
    rcases h1 with h | h <;> simp [h]
  · have h1' := not_or.1 h1
    by_cases h2 : 8 < s.err.toNat
    · simp [h1, h2]
    · simp [h2, h1'.1, h1'.2, Nat.not_lt.1 h2]

/-! ### Issuing a command -/

theorem issue_of_busy (r : Option ErrCode) (f : State → State) (s : State) (h : s.st ≠ .idle) :
    issue r f s = overrun s := by
  simp [issue, State.busy, h]

theorem issue_refused (c : ErrCode) (f : State → State) (s : State) (h : s.st = .idle) :
    issue (some c) f s = complete c s := by
  simp [issue, State.busy, h]

theorem issue_accepted (f : State → State) (s : State) (h : s.st = .idle) : issue none f s = f s := by
  simp [issue, State.busy, h]

theorem lengthCheck_eq_none_iff (len : BitVec 10) : lengthCheck len = none ↔ len.toNat ≤ Config.maxPayload := by
  unfold lengthCheck
  split <;> simp_all

theorem failedCheck_eq_none_iff (s : State) : failedCheck s = none ↔ s.sess.failed = false := by
  unfold failedCheck
  split <;> simp_all

theorem sendCheck_eq_none_iff (len : BitVec 10) (s : State) :
    sendCheck len s = none ↔ len.toNat ≤ Config.maxPayload ∧ s.sess.failed = false := by
  unfold sendCheck lengthCheck failedCheck
  split <;> rename_i h <;> split at h <;> simp_all

theorem malformedCheck_eq_none_iff (s : State) :
    malformedCheck s = none ↔ Config.hdrLen ≤ s.codec.cbufLen.toNat ∧ s.codec.cbufLen.toNat ≤ Config.maxFrame := by
  unfold malformedCheck
  split <;> rename_i h
  · simp only [reduceCtorEq, false_iff]
    omega
  · simp only [true_iff]
    omega

/-! ### The steps of a SEND -/

theorem loopHolds_iff (s : State) :
    loopHolds s = true ↔ (s.window : Int) ≤ s.flight ∨ (s.sess.curFlag = .last ∧ 0 < s.flight) := by
  simp [loopHolds, State.window, State.flight]

theorem leaveLoop_of_last (s : State) (h : s.sess.curFlag = .last) : leaveLoop s = complete errOk s := by
  simp [leaveLoop, h]

theorem leaveLoop_of_data (s : State) (h : s.sess.curFlag ≠ .last) :
    leaveLoop s = push s.sess.pending .finish s := by
  simp [leaveLoop, h]

/-- The loop test starts an attempt, completes a LAST command, or pushes a data packet (41_arq_send R503, R504). -/
theorem loopTest_spec (s : State) :
    (loopHolds s = true ∧ loopTest s = startAttempt s)
    ∨ (loopHolds s = false ∧ s.sess.curFlag = .last ∧ loopTest s = complete errOk s)
    ∨ (loopHolds s = false ∧ s.sess.curFlag ≠ .last ∧ loopTest s = push s.sess.pending .finish s) := by
  by_cases h : loopHolds s = true
  · exact .inl ⟨h, by simp [loopTest, h]⟩
  · by_cases hl : s.sess.curFlag = .last
    · exact .inr (.inl ⟨by simpa using h, hl, by simp [loopTest, h, leaveLoop, hl]⟩)
    · exact .inr (.inr ⟨by simpa using h, hl, by simp [loopTest, h, leaveLoop, hl]⟩)

/-- The first push of a SEND (41_arq_send R502). -/
theorem firstPush_spec (s : State) :
    (s.sess.curFlag = .last ∧ s.flight < s.window ∧ firstPush s = push s.sess.pending .loop s)
    ∨ ((s.sess.curFlag ≠ .last ∨ (s.window : Int) ≤ s.flight) ∧ firstPush s = loopTest s) := by
  unfold firstPush
  split <;> rename_i h
  · exact .inl ⟨h.1, h.2, rfl⟩
  · refine .inr ⟨?_, rfl⟩
    by_cases hl : s.sess.curFlag = .last
    · exact .inr (by simpa [hl, State.window, State.flight] using h)
    · exact .inl hl

/-- The state a round starts in, before it is known whether it has a frame to emit. -/
def roundOpened (k : TxCont) (s : State) : State :=
  { s with
    st := .retx
    counters := { s.counters with retx := s.counters.retx + 1#32 }
    emission := { queue := s.sess.fifo, index := 0, cont := k } }

theorem startRound_spec (k : TxCont) (s : State) :
    (s.sess.fifo ≠ [] ∧ startRound k s = roundOpened k s)
    ∨ (s.sess.fifo = [] ∧ startRound k s = continueAfterTx (roundOpened k s)) := by
  by_cases h : s.sess.fifo = []
  · exact .inr ⟨h, by simp [startRound, h, roundOpened]⟩
  · exact .inl ⟨h, by simp [startRound, h, roundOpened]⟩

theorem continueAfterTx_of_loop (s : State) (h : s.emission.cont = .loop) : continueAfterTx s = loopTest s := by
  simp [continueAfterTx, h]

theorem continueAfterTx_of_finish (s : State) (h : s.emission.cont = .finish) :
    continueAfterTx s = complete errOk s := by
  simp [continueAfterTx, h]

/-! ### The TX port -/

/-- What the TX port offers: a byte of the head frame, in states TX and RETX only (20_memory R220). -/
theorem txOffer_spec {s : State} {b : Byte} {isLast : Bool} (h : s.txOffer = some (b, isLast)) :
    (s.st = .tx ∨ s.st = .retx) ∧ ∃ f later, s.emission.queue = f :: later
      ∧ f[s.emission.index]? = some b ∧ isLast = decide (s.emission.index + 1 = f.length) := by
  unfold State.txOffer at h
  split at h
  · rename_i he
    refine ⟨by simpa using he, ?_⟩
    cases hq : s.emission.queue with
    | nil => simp [hq] at h
    | cons f later =>
      simp only [hq] at h
      cases hb : f[s.emission.index]? with
      | none => simp [hb] at h
      | some b' =>
        simp only [hb, Option.some.injEq, Prod.mk.injEq] at h
        exact ⟨f, later, rfl, by rw [← h.1]; exact hb, h.2.symm⟩
  · simp at h

/-- The TX port after its head frame: the round or the push goes on when no frame is left (41_arq_send R511). -/
theorem frameEmitted_spec (s : State) :
    (s.emission.queue.tail ≠ [] ∧
      frameEmitted s = { s with emission := { s.emission with queue := s.emission.queue.tail, index := 0 } })
    ∨ (s.emission.queue.tail = [] ∧
      frameEmitted s = continueAfterTx { s with emission := { s.emission with queue := [], index := 0 } }) := by
  by_cases h : s.emission.queue.tail = []
  · exact .inr ⟨h, by simp [frameEmitted, h]⟩
  · exact .inl ⟨h, by simp [frameEmitted, h]⟩

/-- One `tx_ready`: nothing is offered, or the last byte of the head frame goes, or another byte of it. -/
theorem txByteStep_spec (s : State) :
    (s.txOffer = none ∧ txByteStep s = s)
    ∨ (∃ b, s.txOffer = some (b, true) ∧ txByteStep s = frameEmitted { s with sink := s.sink.take b true })
    ∨ (∃ b, s.txOffer = some (b, false) ∧ txByteStep s =
        { s with
          sink := s.sink.take b false
          emission := { s.emission with index := s.emission.index + 1 } }) := by
  unfold txByteStep
  cases h : s.txOffer with
  | none => exact .inl ⟨rfl, rfl⟩
  | some p =>
    obtain ⟨b, l⟩ := p
    cases l with
    | true => exact .inr (.inl ⟨b, rfl, rfl⟩)
    | false => exact .inr (.inr ⟨b, rfl, rfl⟩)

/-! ### The RX port and the wait loop -/

theorem afterAck_spec (s : State) :
    (s.sess.curFlag = .last ∧ s.sess.lastSent = false ∧ afterAck s = push s.sess.pending .loop s)
    ∨ (¬ (s.sess.curFlag = .last ∧ s.sess.lastSent = false) ∧ afterAck s = loopTest s) := by
  unfold afterAck
  split <;> rename_i h
  · exact .inl ⟨h.1, h.2, rfl⟩
  · exact .inr ⟨h, rfl⟩

/-- The end of an RX frame: malformed, bad checksum, or a valid ACK (42_arq_events R603, R604, R605, R620). -/
theorem endRxFrame_spec (s : State) :
    (s.rxr.len < 4 ∧ endRxFrame s = startAttempt
      { s with
        rxr := { s.rxr with active := false }
        counters := { s.counters with malformed := s.counters.malformed + 1#32 } })
    ∨ (4 ≤ s.rxr.len ∧ s.rxr.b0 ≠ s.rxr.sum ∧ endRxFrame s = startAttempt
      { s with
        rxr := { s.rxr with active := false }
        counters := { s.counters with badCsum := s.counters.badCsum + 1#32 } })
    ∨ (4 ≤ s.rxr.len ∧ s.rxr.b0 = s.rxr.sum ∧ endRxFrame s = afterAck (dropAcked s.rxr.seq
      { s with
        rxr := { s.rxr with active := false }
        counters := { s.counters with ack := s.counters.ack + 1#32 } })) := by
  unfold endRxFrame
  by_cases h1 : s.rxr.len < Config.hdrLen
  · exact .inl ⟨h1, by simp only [h1, if_true]⟩
  · have h1' : 4 ≤ s.rxr.len := Nat.not_lt.1 h1
    by_cases h2 : s.rxr.b0 = s.rxr.sum
    · refine .inr (.inr ⟨h1', h2, ?_⟩)
      simp only [h1, h2, if_false, ne_eq, not_true_eq_false]
      rfl
    · exact .inr (.inl ⟨h1', h2, by simp only [h1, h2, if_false, ne_eq, not_false_eq_true, if_true]⟩)

/-- What the RX source offers, and what it holds afterwards (20_memory R222, R223). -/
theorem offer_spec {r r' : RxSource} {x : Byte} {l : Bool} (h : r.offer = some (x, l, r')) :
    l = r'.rest.isEmpty ∧
      ((r.rest = x :: r'.rest ∧ r'.waiting = r.waiting)
        ∨ (r.rest = [] ∧ r.waiting = (x :: r'.rest) :: r'.waiting)) := by
  unfold RxSource.offer at h
  obtain ⟨rest, waiting⟩ := r
  cases rest with
  | cons a tail =>
    simp only [Option.some.injEq, Prod.mk.injEq] at h
    obtain ⟨rfl, rfl, rfl⟩ := h
    exact ⟨rfl, .inl ⟨rfl, rfl⟩⟩
  | nil =>
    cases waiting with
    | nil => simp at h
    | cons f later =>
      cases f with
      | nil => simp at h
      | cons a tail =>
        simp only [Option.some.injEq, Prod.mk.injEq] at h
        obtain ⟨rfl, rfl, rfl⟩ := h
        exact ⟨rfl, .inr ⟨rfl, rfl⟩⟩

/-! ### Ticks -/

/-- A tick: no expiry, a retransmission, or a giveup (42_arq_events R611, R630, R640). -/
theorem tickStep_spec (s : State) :
    (attemptExpired (tickTimers s) = false ∧ tickStep s = tickTimers s)
    ∨ (attemptExpired (tickTimers s) = true
        ∧ (tickTimers s).timers.sessionCnt.toNat < s.cfg.giveup.toNat ∧ tickStep s = retransmit (tickTimers s))
    ∨ (attemptExpired (tickTimers s) = true
        ∧ s.cfg.giveup.toNat ≤ (tickTimers s).timers.sessionCnt.toNat ∧ tickStep s = giveUp (tickTimers s)) := by
  unfold tickStep
  by_cases h : attemptExpired (tickTimers s) = true
  · by_cases h2 : (tickTimers s).timers.sessionCnt.toNat < (tickTimers s).cfg.giveup.toNat
    · exact .inr (.inl ⟨h, h2, by simp only [h, if_true, expire, h2]⟩)
    · exact .inr (.inr ⟨h, Nat.not_lt.1 h2, by simp only [h, if_true, expire, h2, if_false]⟩)
  · exact .inl ⟨by simpa using h, by simp [h]⟩

theorem attemptExpired_iff (s : State) :
    attemptExpired s = true ↔ s.st = .waitAck ∧ s.cfg.ackWait.toNat ≤ s.timers.attemptCnt.toNat := by
  simp [attemptExpired]

/-- Giveup under each policy (42_arq_events R640 to R643). -/
theorem giveUp_spec (s : State) :
    (s.cfg.policy = .fatal ∧ giveUp s = giveupFatal (setPending giveupBit s))
    ∨ (s.cfg.policy = .drop ∧ giveUp s = giveupDrop (setPending giveupBit s))
    ∨ (s.cfg.policy = .retry ∧ giveUp s = retransmit (setPending giveupBit s)) := by
  unfold giveUp
  cases h : s.cfg.policy
  · exact .inl ⟨rfl, rfl⟩
  · exact .inr (.inl ⟨rfl, rfl⟩)
  · exact .inr (.inr ⟨rfl, rfl⟩)

/-! ### The codec -/

theorem codecStep_of_not_codec (s : State) (h : s.st ≠ .codec) : codecStep s = s := by
  simp [codecStep, h]

theorem writeCodecResults_of_none (s : State) (h : s.codec.job = none) : writeCodecResults s = s := by
  simp [writeCodecResults, h]

/-- Outside CBUF and the codec registers the results of a codec command change nothing. -/
theorem writeCodecResults_frame (s : State) :
    writeCodecResults s =
      { s with mem := (writeCodecResults s).mem, codec := (writeCodecResults s).codec } := by
  unfold writeCodecResults
  split <;> rfl

/-! ### Reset -/

theorem encoding?_of_not_codec (s : State) (h : s.st ≠ .codec) : s.encoding? = none := by
  simp [State.encoding?, h]

theorem encoding?_eq_some_iff (s : State) (f : Frame) :
    s.encoding? = some f ↔ s.st = .codec ∧ s.codec.job = some (.encode f) := by
  unfold State.encoding?
  split
  · rename_i hst
    split <;> simp_all
  · rename_i hst
    simp [hst]

/-- A reset leaves the buffers alone, but for an ENCODE it abandons: then every byte reads as before the command
or as the command would have left it. -/
theorem abandonedMem_spec (s : State) :
    (s.encoding? = none ∧ abandonedMem s = s.mem)
    ∨ (s.encoding?.isSome = true ∧ ∀ a, Memory.load (abandonedMem s) a = Memory.load s.mem a
        ∨ Memory.load (abandonedMem s) a = Memory.load (writeCodecResults s).mem a) := by
  cases h : s.encoding? with
  | none => exact .inl ⟨rfl, by simp [abandonedMem, h]⟩
  | some f =>
    refine .inr ⟨rfl, fun a => ?_⟩
    have results : (writeCodecResults s).mem = Memory.storeBytes s.mem cbufBase f := by
      simp [writeCodecResults, ((encoding?_eq_some_iff s f).1 h).2]
    rw [results]
    simp only [abandonedMem, h, Memory.load_storeChosen]
    split
    · exact .inr rfl
    · exact .inl rfl

theorem wf_abandonedMem {s : State} (h : Memory.wf s.mem = true) : Memory.wf (abandonedMem s) = true := by
  unfold abandonedMem
  split
  · exact h
  · exact Memory.wf_storeChosen _ _ h _

/-! ### The host bus -/

/-- The writes a host can make beside a command: a configuration, codec or interrupt register, a buffer word,
or nothing; none of them touches the session, the timers, the ports or the counters (43_host_bus R702). -/
theorem writeReg_frame (r : Reg) (v : Word) (s : State) :
    writeReg r v s =
      { s with cfg := (writeReg r v s).cfg, codec := (writeReg r v s).codec, irq := (writeReg r v s).irq } := by
  cases r <;> try rfl
  all_goals
    simp only [writeReg, writeCtrl, writeWindowSize, writeAckWait, writeGiveup, writeCbufLen, ignoreWrite, setPending]
    repeat' split
    all_goals rfl

theorem writeBuffer_spec (a : Nat) (v : Word) (s : State) :
    (s.st ≠ .idle ∧ writeBuffer a v s = ignoreWrite s)
    ∨ (s.st = .idle ∧ writeBuffer a v s = { s with mem := Memory.storeWord s.mem a v }) := by
  by_cases h : s.st = .idle
  · exact .inr ⟨h, by simp [writeBuffer, State.busy, h]⟩
  · exact .inl ⟨h, by simp [writeBuffer, State.busy, h]⟩

/-! ### One event -/

theorem step_of_inputs (s : State) (e : Event) (rest : List Event) (h : s.inputs = e :: rest) :
    step s = runEvent e { s with inputs := rest } := by
  simp [step, h]

theorem step_alone (s : State) (h : s.inputs = []) : step s = runAlone s := by
  simp [step, h]

theorem runEvent_of_legal (e : Event) (s : State) (h : s.illegal? = none) : runEvent e s = eventEffect e s := by
  simp [runEvent, h]

theorem runEvent_of_reset (e : Event) (s : State) (h : e.isReset = true) : runEvent e s = eventEffect e s := by
  simp [runEvent, h]

/-- The step of an event that comes next, in no fault state. -/
theorem step_of_facing {s : State} {e : Event} {rest : List Event} (h : s.facing e rest) :
    step s = eventEffect e (s.popped rest) := by
  rw [step_of_inputs s e rest h.1]
  exact runEvent_of_legal e (s.popped rest) h.2

/-- A write cycle answers what the write answers, but for `hb_rdata` when both strobes are set (43_host_bus R700). -/
theorem answersWrite_of_hostWrite {s t : State} {h : HostAccess} {a : BitVec 12} {v : Word} {rest : List Event}
    (hf : s.facing (.host h) rest) (hw : h.writes a v) (ht : hostWrite a v (s.popped rest) = .next t) :
    answersWrite h (step s) t := by
  rw [step_of_facing hf]
  rcases hw with rfl | rfl
  · exact ht
  · refine ⟨Config.bothStrobesData t.freeCount, t.freeCount + 1, ?_⟩
    simp only [eventEffect, hostAccess, ht]
    rfl

/-- One more step of a run, when the step answers a next state. -/
theorem run_succ_of_next {s t : State} {n : Nat} (h : step s = .next t) :
    Host.Core.run core (n + 1) s = Host.Core.run core n t := by
  have unfolded : ∀ (M : Host.Core) (k : Nat) (u : M.State), M.run (k + 1) u =
      (match M.step u with | .next u' => M.run k u' | .fault r => .fault r | .refused r => .refused r) :=
    fun _ _ _ => rfl
  refine (unfolded core n s).trans ?_
  have hs : core.step s = .next t := h
  rw [hs]

@[simp] theorem andThen_next (s : State) (f : State → State) :
    Result.andThen (.next s) f = .next (f s) := rfl

end Sys2Proof.Machine
end

