-- ==== Sys2Proof/Laws/PerInstr.lean ====
section
/-!
SUPPORT. A law made per command: its encoding carries the fixed bits of its row of 30_encoding R304.
-/
namespace Sys2Proof.Laws

/-- Bit `i` of a packed word lies in the field the layout of R301 puts it in. -/
theorem getLsbD_packWord (s : Seq) (l : BitVec 10) (f : BitVec 2) (o : BitVec 4) (i : Nat) :
    (packWord s l f o).getLsbD i =
      if i < 4 then o.getLsbD i
      else if i - 4 < 2 then f.getLsbD (i - 4)
      else if i - 4 - 2 < 10 then l.getLsbD (i - 4 - 2)
      else s.getLsbD (i - 4 - 2 - 10) := by
  change BitVec.getLsbD (s ++ l ++ f ++ o : BitVec (16 + 10 + 2 + 4)) i = _
  rw [BitVec.getLsbD_append, BitVec.getLsbD_append, BitVec.getLsbD_append]

namespace RowMatch

/-- The command's word, under its row's mask, is its row's match. -/
def Statement (i : Instr) : Prop := encodeWord i &&& rowMask i = rowMatch i

theorem encode (flag : BitVec 2) (len : BitVec 10) (seq : Seq) : Statement (.encode flag len seq) := by
  apply BitVec.eq_of_getLsbD_eq
  intro i hi
  simp only [encodeWord, rowMask, rowMatch]
  interval_cases i <;> simp [-BitVec.getLsbD_eq_getElem, getLsbD_packWord]

theorem decode : Statement .decode := by
  unfold Statement
  decide

theorem sendFirst (len : BitVec 10) : Statement (.sendFirst len) := by
  apply BitVec.eq_of_getLsbD_eq
  intro i hi
  simp only [encodeWord, rowMask, rowMatch]
  interval_cases i <;> simp [-BitVec.getLsbD_eq_getElem, getLsbD_packWord]

theorem sendMiddle (len : BitVec 10) : Statement (.sendMiddle len) := by
  apply BitVec.eq_of_getLsbD_eq
  intro i hi
  simp only [encodeWord, rowMask, rowMatch]
  interval_cases i <;> simp [-BitVec.getLsbD_eq_getElem, getLsbD_packWord]

theorem sendLast (len : BitVec 10) : Statement (.sendLast len) := by
  apply BitVec.eq_of_getLsbD_eq
  intro i hi
  simp only [encodeWord, rowMask, rowMatch]
  interval_cases i <;> simp [-BitVec.getLsbD_eq_getElem, getLsbD_packWord]

theorem sendall : Statement .sendall := by
  unfold Statement
  decide

end RowMatch

end Sys2Proof.Laws
end

