-- ==== Sys2Proof/Tests/Slice0.lean ====
section
/-!
SUPPORT. Tests. Expected words and bytes come from the spec: the encodings of 30_encoding R301, R304, R320, the
worked examples of the command rules, and 95_test_vectors. Then one witness for the hypotheses of each
obligation that has any, with one for each of its clauses.
-/
namespace Sys2Proof.Tests
open Sys2Proof.Machine

/-! ### Well-formedness: one ill-formed command per check, refused -/

theorem test_wf_flag_three : (Instr.encode 3#2 0#10 0#16).wellFormed = false := by decide
theorem test_wf_encode_len : (Instr.encode 0#2 997#10 0#16).wellFormed = false := by decide
theorem test_wf_first_len : (Instr.sendFirst 997#10).wellFormed = false := by decide
theorem test_wf_middle_len : (Instr.sendMiddle 997#10).wellFormed = false := by decide
theorem test_wf_last_len : (Instr.sendLast 1023#10).wellFormed = false := by decide
theorem test_wf_accepts :
    (Instr.encode 2#2 996#10 65535#16).wellFormed = true ∧ Instr.decode.wellFormed = true
    ∧ (Instr.sendLast 996#10).wellFormed = true ∧ Instr.sendall.wellFormed = true := by decide

/-! ### Decoding, on words packed by hand from R301: SEQ [31:16], LEN [15:6], FLAG [5:4], OP [3:0] -/

/-- R410's example: `ENCODE MIDDLE, 3, 0x1234`. -/
theorem test_decode_encode :
    decodeWord 0b00010010001101000000000011010001#32 = .command (.encode 1#2 3#10 0x1234#16) := by decide
theorem test_decode_decode :
    decodeWord 0b00000000000000000000000000000010#32 = .command .decode := by decide
/-- R520's example: `SEND.FIRST 1` is 0x43. -/
theorem test_decode_first :
    decodeWord 0b00000000000000000000000001000011#32 = .command (.sendFirst 1#10) := by decide
theorem test_decode_middle :
    decodeWord 0b00000000000000001111100100010011#32 = .command (.sendMiddle 996#10) := by decide
theorem test_decode_last :
    decodeWord 0b00000000000000000000000000100011#32 = .command (.sendLast 0#10) := by decide
theorem test_decode_sendall :
    decodeWord 0b00000000000000000000000000000100#32 = .command .sendall := by decide
/-- R305: illegal opcodes, a field not used that is not 0, a SEND with FLAG 3. -/
theorem test_decode_rejects :
    decodeWord 0x00000000#32 = .rejected .opcode ∧ decodeWord 0x00000005#32 = .rejected .opcode
    ∧ decodeWord 0x0000000F#32 = .rejected .opcode ∧ decodeWord 0x00000012#32 = .rejected .reserved
    ∧ decodeWord 0x80000004#32 = .rejected .reserved ∧ decodeWord 0x00010003#32 = .rejected .reserved
    ∧ decodeWord 0x00000033#32 = .rejected .flag := by decide
theorem test_encode_words :
    encodeWord (.encode 1#2 3#10 0x1234#16) = 0x123400D1#32 ∧ encodeWord (.sendFirst 1#10) = 0x43#32
    ∧ encodeWord (.sendMiddle 1#10) = 0x53#32 ∧ encodeWord (.sendLast 1#10) = 0x63#32 := by decide
theorem test_table_word : decodeTableWord 32 0x123400D1 = some (.encode 1#2 3#10 0x1234#16) := by decide

/-! ### Small states -/

/-- The reset state with `WMAX` = 8, `W` = 3, and the given buffer bytes. -/
def idle (mem : Memory) : State :=
  { State.reset with cfg := { State.reset.cfg with wmax := 8#16, windowSize := 3#16 }, mem := mem }

/-- A part of the state an outcome leaves, if it is a next state. -/
def after {α : Type} (r : Host.Outcome State Fault Refusal) (part : State → α) : Option α :=
  match r with
  | .next t => some (part t)
  | .fault _ => none
  | .refused _ => none

/-- The frames of R540's example, numbers 0 and 1, and a third, number 2. -/
def frame0 : Frame := [0x78#8, 0x00#8, 0x00#8, 0x00#8, 0x78#8]
def frame1 : Frame := [0x7B#8, 0x00#8, 0x01#8, 0x01#8, 0x79#8]
def frame2 : Frame := [0x7D#8, 0x00#8, 0x02#8, 0x01#8, 0x7A#8]

/-- A frame that acknowledges number `lo`: flag FIRST, no payload. -/
def ack (lo : Byte) : Frame := [lo, 0x00#8, lo, 0x00#8]

/-- Idle, the session locked, with `fifo` outstanding and every number up to its end used. -/
def sent (fifo : List Frame) (s : State) : State :=
  { s with sess := { s.sess with cfgLocked := true, fifo := fifo, nextSeq := BitVec.ofNat 16 fifo.length } }

/-- Idle with `CBUF_LEN` = `len`. -/
def framed (len : BitVec 10) (mem : Memory) : State :=
  { idle mem with codec := { cbufLen := len, decResult := 0#32, decSeq := 0#32, job := none } }

/-- A codec command in progress. -/
def coding (job : CodecJob) : State :=
  { idle [] with st := .codec, codec := { cbufLen := 0#10, decResult := 0#32, decSeq := 0#32, job := some job } }

/-! ### One step of each command -/

/-- R410's example. -/
theorem test_encode_job :
    after (exec (.encode 1#2 3#10 0x1234#16)
        (idle [(0x400, 0x61#8), (0x401, 0x62#8), (0x402, 0x63#8)])) (fun t => (t.st, t.codec.job))
      = some (.codec, some (.encode [0x6D#8, 0x12#8, 0x34#8, 0x01#8, 0x61#8, 0x62#8, 0x63#8])) := by decide

theorem test_encode_completes :
    after (step (coding (.encode [0x01#8, 0x00#8, 0x00#8, 0x01#8]))) (fun t => (t.st, t.codec.cbufLen, t.mem))
      = some (.idle, 4#10, [(0x800, 0x01#8), (0x801, 0x00#8), (0x802, 0x00#8), (0x803, 0x01#8)]) := by decide

/-- R420's example. -/
theorem test_decode_job :
    after (exec .decode (framed 5#10
        [(0x800, 0x00#8), (0x801, 0x00#8), (0x802, 0x00#8), (0x803, 0x00#8), (0x804, 0x01#8)])) (fun t => t.codec.job)
      = some (some (.decode 0x00000100#32 0x00010000#32)) := by decide

/-- R421. -/
theorem test_decode_malformed :
    after (exec .decode (idle [])) (fun t => (t.st, t.err, t.irq.pending)) = some (.idle, 5#4, 3#5) := by decide

/-- R520's example. -/
theorem test_send_first :
    after (exec (.sendFirst 1#10) (idle [(0x400, 0x41#8)])) (fun t => (t.emission.queue, t.sess.nextSeq))
      = some ([[0x41#8, 0x00#8, 0x00#8, 0x00#8, 0x41#8]], 1#16) := by decide

/-- R802: the LEN check comes before the FAILED check. -/
theorem test_send_first_length :
    after (exec (.sendFirst 997#10) { idle [] with sess := { (idle []).sess with failed := true } })
      (fun t => t.err) = some 4#4 := by decide

/-- R540's second frame, as a `SEND.MIDDLE` builds it. -/
theorem test_send_middle :
    after (exec (.sendMiddle 1#10) (sent [frame0] (idle [(0x400, 0x79#8)]))) (fun t => (t.emission.queue, t.sess.fifo))
      = some ([frame1], [frame0, frame1]) := by decide

/-- R520: a full window makes the command wait, with IN_FLIGHT = 3 and OLDEST_SEQ = 0. -/
theorem test_send_middle_waits :
    after (exec (.sendMiddle 0#10) (sent [frame0, frame1, frame2] (idle [])))
      (fun t => (t.st, t.sess.inFlight, t.sess.oldestSeq, t.sess.nextSeq)) = some (.waitAck, 3#18, 0#16, 3#16) := by decide

/-- R530's example: `49 00 03 02 44` waits while the window is full. -/
theorem test_send_last_waits :
    after (exec (.sendLast 1#10) (sent [frame0, frame1, frame2] (idle [(0x400, 0x44#8)])))
      (fun t => (t.st, t.sess.pending, t.sess.lastSent))
      = some (.waitAck, [0x49#8, 0x00#8, 0x03#8, 0x02#8, 0x44#8], false) := by decide

/-- R553: with an empty FIFO the LAST packet goes at once. -/
theorem test_send_last_pushes :
    after (exec (.sendLast 0#10) (idle [])) (fun t => (t.st, t.sess.fifo, t.sess.lastSent))
      = some (.tx, [[0x02#8, 0x00#8, 0x00#8, 0x02#8]], true) := by decide

/-- R540's example. -/
theorem test_sendall_round :
    after (exec .sendall (sent [frame0, frame1] (idle []))) (fun t => (t.st, t.emission.queue, t.counters.retx))
      = some (.retx, [frame0, frame1], 1#32) := by decide

theorem test_sendall_empty :
    after (exec .sendall (idle [])) (fun t => (t.st, t.err, t.counters.retx)) = some (.idle, 0#4, 1#32) := by decide

/-! ### One step of the bus and the agents -/

/-- A command written to `CMD` from the reset state runs. -/
theorem test_fetch_runs :
    after (step (State.reset.withFetchWord 32 4)) (fun t => (t.irq.pending, t.counters.retx)) = some (1#5, 1#32) := by
  decide

/-- R702's example. -/
theorem test_write_txbuf :
    after (hostWrite 0x400#12 0x00636261#32 (idle [])) (fun t => t.mem)
      = some [(0x400, 0x61#8), (0x401, 0x62#8), (0x402, 0x63#8), (0x403, 0x00#8)] := by decide

/-- R206, R207: lanes past the end of a buffer are dropped and read 0. -/
theorem test_write_past_end :
    after (hostWrite 0xBE8#12 0xFFFFFFFF#32 (idle [])) (fun t => (t.mem, (hostRead 0xBE8#12 t).rdata))
      = some ([], 0#32) := by decide

/-- R700's examples. -/
theorem test_read_reset :
    (hostRead 0x000#12 State.reset).rdata = 0x52554450#32 ∧ (hostRead 0x00C#12 State.reset).rdata = 1#32
    ∧ (hostRead 0x01C#12 State.reset).rdata = 0#32 := by decide

/-- R121: a negative IN_FLIGHT reads sign-extended. -/
theorem test_read_in_flight :
    (hostRead 0x030#12 { idle [] with sess := { (idle []).sess with inFlight := 0x3FFFF#18 } }).rdata
      = 0xFFFFFFFF#32 := by decide

theorem test_reset_memory_wf : Memory.wf State.reset.mem = true := by decide

/-- R162: policy 2 is RETRY, and `CTRL` reads it back. -/
theorem test_write_ctrl :
    after (hostWrite 0x008#12 2#32 (idle [])) (fun t => (t.cfg.policy, (hostRead 0x008#12 t).rdata))
      = some (.retry, 2#32) := by decide

/-- R110, R167: `STATUS` in WAIT_ACK (4) and RX (5), BUSY set. -/
theorem test_read_status :
    (hostRead 0x01C#12 { idle [] with st := .waitAck }).rdata = 0x401#32
    ∧ (hostRead 0x01C#12 { idle [] with st := .rx }).rdata = 0x501#32 := by decide

/-- R700: both strobes make a write. -/
theorem test_both_strobes_write :
    after (hostAccess (.readWrite 0x400#12 0x00636261#32) (idle [])) (fun t => t.mem)
      = some [(0x400, 0x61#8), (0x401, 0x62#8), (0x402, 0x63#8), (0x403, 0x00#8)] := by decide

/-! ### Witnesses: the invariant on small states -/

/-- The conditions of the invariant, one by one, as a check that can be run. -/
def invCheck (s : State) : Bool :=
  let busyLoop := decide (s.st = .waitAck ∨ s.st = .rx ∨ (s.st = .retx ∧ s.emission.cont = .loop))
  let soundFrame := fun (f : Frame) =>
    decide (4 ≤ f.length ∧ f.length ≤ 1000 ∧ passesChecksum f = true ∧ (byteAt f 3).toNat ≤ 2)
  let lastPushed := decide (s.sess.curFlag = .last ∧ s.sess.lastSent = true ∧ s.flight ≤ s.fifoLen
    ∧ (s.fifoLen : Int) ≤ max 0 s.flight + 1)
  let notPushed := decide (s.sess.lastSent = false ∧ (s.fifoLen : Int) = max 0 s.flight
    ∧ frameSeq s.sess.pending = s.sess.nextSeq) && soundFrame s.sess.pending
  let room := decide (s.fifoLen ≤ s.window)
  decide (s.illegal? = none)
  && decide (1 ≤ s.cfg.wmax.toNat ∧ s.cfg.wmax.toNat ≤ 32767 ∧ 1 ≤ s.cfg.windowSize.toNat
      ∧ s.cfg.windowSize.toNat ≤ s.cfg.wmax.toNat ∧ 1 ≤ s.cfg.ackWait.toNat)
  && Memory.wf s.mem
  && ((List.range s.fifoLen).all fun i =>
      decide (frameSeq (s.sess.fifo.getD i []) = s.headSeq + BitVec.ofNat 16 i))
  && s.sess.fifo.all soundFrame
  && decide (-65534 ≤ s.flight ∧ s.flight ≤ s.window ∧ s.fifoLen ≤ s.window + 1)
  && (s.sess.cfgLocked || decide (s.sess.fifo = [] ∧ s.sess.inFlight = 0#18))
  && (!decide (s.st = .idle ∨ s.st = .codec) || s.sess.failed || room)
  && (!s.sess.failed || decide (s.st = .idle ∨ s.st = .codec))
  && (!(busyLoop || decide (s.st = .tx)) || s.sess.cfgLocked)
  && (!busyLoop || (loopHolds s && (lastPushed || notPushed)))
  && (!decide (s.st = .tx ∧ s.emission.cont = .loop) || lastPushed)
  && (!decide (s.st = .tx ∧ s.emission.cont = .finish) || room)
  && (!decide (s.st = .retx ∧ s.emission.cont = .finish) || room)
  && (s.emitting || decide (s.emission.queue = [] ∧ s.sink.part = []))
  && (!s.emitting || (decide (s.emission.queue <:+ s.sess.fifo) &&
      match s.emission.queue with
      | [] => false
      | f :: _ => decide (s.emission.index < f.length ∧ s.sink.part = f.take s.emission.index)))
  && decide (s.rxr.active = decide (s.st = .rx))
  && (!decide (s.st = .rx) || decide (1 ≤ s.rxr.len ∧ s.rxr.len ≤ 1001))
  && decide (s.st = .rx ↔ s.source.rest ≠ [])
  && (s.source.waiting.all fun f => decide (f ≠ []))
  && decide (s.st = .codec ↔ s.codec.job ≠ none)
  && (match s.codec.job with
      | some (.encode f) => soundFrame f
      | _ => true)

theorem inv_of_invCheck {s : State} (h : invCheck s = true) : Inv s := by
  simp only [invCheck, Bool.and_eq_true, Bool.or_eq_true, Bool.not_eq_true', decide_eq_true_eq,
    decide_eq_false_iff_not, List.all_eq_true, List.mem_range] at h
  obtain ⟨⟨⟨⟨⟨⟨⟨⟨⟨⟨⟨⟨⟨⟨⟨⟨⟨⟨⟨⟨⟨hcodes, hcfg⟩, hmem⟩, horder⟩, hsound⟩, hflight⟩, hunlocked⟩, hrest⟩, hlive⟩,
    hlocked⟩, hloop⟩, htxl⟩, htxf⟩, hrtf⟩, hquiet⟩, hemit⟩, hact⟩, hstart⟩, hsrc⟩, hwait⟩, hjob⟩, hframe⟩ := h
  have frameSound : ∀ f : Frame,
      (4 ≤ f.length ∧ f.length ≤ 1000 ∧ passesChecksum f = true ∧ (byteAt f 3).toNat ≤ 2) → FrameSound f :=
    fun f hf => ⟨hf.1, hf.2.1, hf.2.2.1, hf.2.2.2⟩
  have orElse : ∀ {p q : Prop}, ¬ p ∨ q → p → q := fun h hp => h.resolve_left (fun hn => hn hp)
  have hl : s.looping → (loopHolds s = true ∧ (LastPushed s ∨ NotPushed s)) := by
    intro hs
    have h2 := orElse hloop hs
    refine ⟨h2.1, h2.2.imp (fun a => ⟨a.1, a.2.1, a.2.2.1, a.2.2.2⟩) (fun a => ?_)⟩
    exact ⟨a.1.1, a.1.2.1, frameSound _ a.2, a.1.2.2⟩
  refine ⟨hcodes, ⟨hcfg.1, hcfg.2.1, hcfg.2.2.1, hcfg.2.2.2.1, hcfg.2.2.2.2⟩, hmem, ?_, ?_, ?_, ?_⟩
  · refine ⟨?_, fun f hf => frameSound f (hsound f hf), hflight.1, hflight.2.1, hflight.2.2, ?_, ?_, ?_, ?_,
      fun hs => (hl hs).1, fun hs => (hl hs).2, ?_, ?_, ?_⟩
    · intro i f hf
      have hi : i < s.sess.fifo.length := by
        by_contra hc
        rw [List.getElem?_eq_none (by omega)] at hf
        cases hf
      have := horder i hi
      rw [List.getD_eq_getElem?_getD, hf] at this
      exact this
    · intro hc
      rcases hunlocked with h1 | h1
      · rw [hc] at h1
        cases h1
      · exact h1
    · intro hs hf
      rcases hrest with (h1 | h1) | h1
      · exact absurd hs h1
      · rw [hf] at h1
        cases h1
      · exact h1
    · intro hf
      rcases hlive with h1 | h1
      · rw [hf] at h1
        cases h1
      · exact h1
    · intro hs
      rcases hlocked with h1 | h1
      · simp only [Bool.or_eq_false_iff, decide_eq_false_iff_not] at h1
        rcases hs with hs | hs
        · exact absurd hs h1.1
        · exact absurd hs h1.2
      · exact h1
    · intro hs hc
      have h2 := orElse htxl ⟨hs, hc⟩
      exact ⟨h2.1, h2.2.1, h2.2.2.1, h2.2.2.2⟩
    · exact fun hs hc => orElse htxf ⟨hs, hc⟩
    · exact fun hs hc => orElse hrtf ⟨hs, hc⟩
  · refine ⟨fun he => hquiet.resolve_left (by simp [he]), fun he => ?_, fun he => ?_⟩
    · rcases hemit with h1 | h1
      · rw [he] at h1
        cases h1
      · exact h1.1
    · rcases hemit with h1 | h1
      · rw [he] at h1
        cases h1
      · have h2 := h1.2
        cases hq : s.emission.queue with
        | nil => simp [hq] at h2
        | cons f later =>
          simp only [hq, decide_eq_true_eq] at h2
          exact ⟨f, later, rfl, h2.1, h2.2⟩
  · exact ⟨hact, orElse hstart, hsrc, hwait⟩
  · refine ⟨hjob, fun f hf => ?_⟩
    simp only [hf, decide_eq_true_eq] at hframe
    exact frameSound f hframe

/-! ### Witnesses: the states -/

/-- A `SEND.MIDDLE` that waits with a full window: numbers 0 to 2 outstanding, its packet number 3. -/
def waiting : State :=
  let s := sent [frame0, frame1, frame2] (idle [])
  { s with
    st := .waitAck
    sess := { s.sess with
      curFlag := .middle, inFlight := 3#18, oldestSeq := 0#16, pending := [0x04#8, 0x00#8, 0x03#8, 0x01#8] } }

/-- A `SEND.LAST` that waits with a full window, its packet not yet pushed. -/
def lastDeferred : State :=
  { waiting with
    sess := { waiting.sess with curFlag := .last, pending := [0x05#8, 0x00#8, 0x03#8, 0x02#8] } }

/-- The packet of a `SEND.LAST` pushed as number 2. -/
def frameL2 : Frame := [0x04#8, 0x00#8, 0x02#8, 0x02#8]

/-- A `SEND.LAST` that waits, its packet pushed behind two others. -/
def lastPushed : State :=
  let s := sent [frame0, frame1, frameL2] (idle [])
  { s with
    st := .waitAck
    sess := { s.sess with curFlag := .last, lastSent := true, inFlight := 2#18, oldestSeq := 0#16 } }

/-- `s` emitting `queue`, the first `index` bytes of its head frame taken. -/
def emit (s : State) (st : SeqState) (cont : TxCont) (queue : List Frame) (index : Nat) : State :=
  { s with
    st := st
    emission := { queue := queue, index := index, cont := cont }
    sink := { frames := [], part := (queue.headD []).take index } }

/-- A `SEND.LAST` alone in its session, its packet on the TX port. -/
def aloneOnPort : State :=
  let s := sent [[0x02#8, 0x00#8, 0x00#8, 0x02#8]] (idle [])
  emit { s with sess := { s.sess with curFlag := .last, lastSent := true } } .tx .loop
    [[0x02#8, 0x00#8, 0x00#8, 0x02#8]] 0

/-- `s` with the datagram `f` waiting and its delivery the next step. -/
def delivering (f : Frame) (s : State) : State :=
  { s with inputs := [.rxFrame], source := { rest := [], waiting := [f] } }

/-- `s` one tick before the attempt expires, with `SESSION_CNT` = `session`, under `policy`. -/
def expiring (policy : GiveupPolicy) (session : BitVec 16) : State :=
  { waiting with
    inputs := [.tick]
    cfg := { waiting.cfg with policy := policy }
    timers := { sessionCnt := session, attemptCnt := 1#16 } }

/-- `s` with one host access to come. -/
def hostNext (h : HostAccess) (s : State) : State := s.popped [.host h]

/-- Both write cycles of `v` to `a`, with and without `hb_re`, can come next in `s`. -/
def bothWrites (a : BitVec 12) (v : Word) (s : State) : Prop :=
  ((hostNext (.write a v) s).facing (.host (.write a v)) [] ∧ (HostAccess.write a v).writes a v)
  ∧ ((hostNext (.readWrite a v) s).facing (.host (.readWrite a v)) [] ∧ (HostAccess.readWrite a v).writes a v)

theorem bothWrites_of_codesLegal {a : BitVec 12} {v : Word} {s : State} (h : CodesLegal s) : bothWrites a v s :=
  ⟨⟨⟨rfl, h⟩, .inl rfl⟩, ⟨⟨rfl, h⟩, .inr rfl⟩⟩

/-- The session after a FATAL giveup. -/
def failed (s : State) : State := { s with sess := { s.sess with failed := true } }

/-! ### Witnesses: encoding and codec functions -/

theorem test_witness_encodeOfDecode : decodeWord 0x00000063#32 = .command (.sendLast 1#10) := by decide

theorem test_witness_wordsByMask :
    decodeWord 0x00000013#32 = .command (.sendMiddle 0#10)
    ∧ 0xFFFFFFF1#32 &&& rowMask (.encode 0#2 0#10 0#16) = rowMatch (.encode 0#2 0#10 0#16) := by decide

theorem test_witness_decodeFrame : ([0#8, 0#8, 0#8] : Frame).length < 4 ∧ 4 ≤ ([0#8, 0#8, 0#8, 0#8] : Frame).length := by
  decide

theorem test_witness_roundTrip : (List.replicate 996 0xFF#8 : List Byte).length ≤ 996 :=
  List.length_replicate.le

/-- First and last byte of a frame, first and last bit of a byte. -/
theorem test_witness_bitFlip :
    4 ≤ frame1.length ∧ passesChecksum frame1 = true ∧ 0 < frame1.length ∧ 4 < frame1.length ∧ 0 < 8 ∧ 7 < 8 := by decide

theorem test_witness_reordering :
    passesChecksum (0x03#8 :: [0x00#8, 0x01#8, 0x02#8]) = true
    ∧ ([0x00#8, 0x01#8, 0x02#8].map BitVec.toNat).sum % 256 = ([0xFF#8, 0x03#8, 0x01#8].map BitVec.toNat).sum % 256
    ∧ List.Perm [0x00#8, 0x01#8, 0x02#8] [0x00#8, 0x02#8, 0x01#8] := by decide

/-! ### Witnesses: commands -/

theorem test_witness_stepRuns :
    bothWrites 0x018#12 4#32 (idle [])
    ∧ target 0x018#12 = .reg .cmd ∧ decodeWord 4#32 = .command .sendall :=
  ⟨bothWrites_of_codesLegal rfl, by decide, by decide⟩

theorem test_witness_overrun :
    bothWrites 0x01B#12 0#32 waiting
    ∧ target 0x01B#12 = .reg .cmd ∧ (hostNext (.write 0x01B#12 0#32) waiting).busy = true :=
  ⟨bothWrites_of_codesLegal rfl, by decide, by decide⟩

/-- A word that fails the first check, one that fails the last, and one that fails none. -/
theorem test_witness_acceptance :
    bothWrites 0x018#12 0#32 (idle [])
    ∧ (idle []).busy = false ∧ firstFailingCheck 0#32 (idle []) = 1
    ∧ firstFailingCheck 4#32 (failed (idle [])) = 6
    ∧ bothWrites 0x018#12 4#32 (failed (idle []))
    ∧ firstFailingCheck 4#32 (idle []) = 0
    ∧ bothWrites 0x018#12 4#32 (idle []) :=
  ⟨bothWrites_of_codesLegal rfl, by decide, by decide, by decide, bothWrites_of_codesLegal rfl, by decide,
    bothWrites_of_codesLegal rfl⟩

theorem test_witness_failed :
    (failed (framed 4#10 [])).sess.failed = true ∧ (failed (framed 4#10 [])).busy = false ∧ (996#10).toNat ≤ 996
    ∧ (2#2 : BitVec 2) ≠ 3#2 ∧ 4 ≤ (failed (framed 4#10 [])).codec.cbufLen.toNat
    ∧ (failed (framed 1000#10 [])).codec.cbufLen.toNat ≤ 1000 := by decide

theorem test_witness_encode :
    (idle []).st = .idle ∧ PacketFlag.ofField? 2#2 = some .last ∧ (996#10).toNat ≤ 996 := by decide

theorem test_witness_decode :
    (framed 4#10 []).st = .idle ∧ 4 ≤ (framed 4#10 []).codec.cbufLen.toNat ∧ (framed 4#10 []).codec.cbufLen.toNat ≤ 1000
    ∧ (framed 1000#10 []).st = .idle ∧ 4 ≤ (framed 1000#10 []).codec.cbufLen.toNat
    ∧ (framed 1000#10 []).codec.cbufLen.toNat ≤ 1000 := by decide

theorem test_witness_malformed :
    (framed 3#10 []).st = .idle ∧ (framed 3#10 []).codec.cbufLen.toNat < 4
    ∧ (framed 1001#10 []).st = .idle ∧ 1000 < (framed 1001#10 []).codec.cbufLen.toNat := by decide

theorem test_witness_decodeAfterEncode :
    (idle []).st = .idle ∧ (idle []).inputs = [] ∧ (0#2 : BitVec 2) ≠ 3#2 ∧ (996#10).toNat ≤ 996 := by decide

/-- One free place in the window: `SEND.FIRST`, `SEND.MIDDLE` and `SEND.LAST` push. -/
theorem test_witness_room :
    (sent [frame0, frame1] (idle [])).st = .idle ∧ (sent [frame0, frame1] (idle [])).sess.failed = false
    ∧ (0#10).toNat ≤ 996 ∧ (sent [frame0, frame1] (idle [])).fifoLen < (sent [frame0, frame1] (idle [])).window := by decide

/-- No free place in the window: they wait. -/
theorem test_witness_full :
    (sent [frame0, frame1, frame2] (idle [])).st = .idle
    ∧ (sent [frame0, frame1, frame2] (idle [])).sess.failed = false ∧ (996#10).toNat ≤ 996
    ∧ (sent [frame0, frame1, frame2] (idle [])).window ≤ (sent [frame0, frame1, frame2] (idle [])).fifoLen
    ∧ (sent [frame0, frame1, frame2] (idle [])).fifoLen ≤ 32768 := by decide

theorem test_witness_lastAlone :
    ((idle []).popped [.txFrame]).st = .idle ∧ ((idle []).popped [.txFrame]).sess.failed = false ∧ (0#10).toNat ≤ 996
    ∧ ((idle []).popped [.txFrame]).sess.fifo = [] ∧ 1 ≤ ((idle []).popped [.txFrame]).window
    ∧ ((idle []).popped [.txFrame]).sink.part = [] ∧ ((idle []).popped [.txFrame]).inputs = [.txFrame] := by decide

theorem test_witness_sendall :
    (sent [frame0] (idle [])).st = .idle ∧ (sent [frame0] (idle [])).sess.failed = false
    ∧ (sent [frame0] (idle [])).sess.fifo ≠ [] ∧ (idle []).st = .idle ∧ (idle []).sess.failed = false
    ∧ (idle []).sess.fifo = [] := by decide

/-! ### Witnesses: the ports and the wait loop -/

/-- A round with another frame behind, and the last frame of a `SENDALL` round. -/
theorem test_witness_emission_round :
    Inv ((emit (sent [frame0, frame1] (idle [])) .retx .finish [frame0, frame1] 4).popped [.txFrame])
    ∧ Inv ((emit (sent [frame0, frame1] (idle [])) .retx .finish [frame1] 0).popped [.txFrame]) :=
  ⟨inv_of_invCheck (by decide), inv_of_invCheck (by decide)⟩

/-- A LAST packet behind others, where the loop condition holds, and a LAST packet alone, where it does not. -/
theorem test_witness_emission_loop :
    Inv ((emit lastPushed .tx .loop [frameL2] 0).popped [.txFrame])
    ∧ loopCondition lastPushed.sess.curFlag lastPushed.window lastPushed.flight
    ∧ Inv (aloneOnPort.popped [.txFrame])
    ∧ ¬ loopCondition aloneOnPort.sess.curFlag aloneOnPort.window aloneOnPort.flight :=
  ⟨inv_of_invCheck (by decide), .inr (by decide), inv_of_invCheck (by decide), by simp [loopCondition]; decide⟩

theorem test_witness_emission_hypotheses :
    (emit lastPushed .tx .loop [frameL2] 0).emitting = true
    ∧ (emit lastPushed .tx .loop [frameL2] 0).emission.queue = frameL2 :: []
    ∧ ((emit lastPushed .tx .loop [frameL2] 0).popped [.txFrame]).inputs = .txFrame :: [] := by decide

theorem test_witness_closedPorts :
    ((idle []).popped [.txByte]).facing .txByte [] ∧ (idle []).st ≠ .tx ∧ (idle []).st ≠ .retx
    ∧ ((idle []).popped [.rxFrame]).facing .rxFrame [] ∧ (idle []).st ≠ .waitAck ∧ (idle []).st ≠ .rx :=
  ⟨⟨rfl, rfl⟩, by decide, by decide, ⟨rfl, rfl⟩, by decide, by decide⟩

/-- The longest malformed frame, and the shortest with a bad checksum. -/
theorem test_witness_badFrames :
    (delivering [0x00#8, 0x00#8, 0x00#8] waiting).facing .rxFrame []
    ∧ (delivering [0x00#8, 0x00#8, 0x00#8] waiting).st = .waitAck ∧ ([0x00#8, 0x00#8, 0x00#8] : Frame).length < 4
    ∧ (delivering [0x01#8, 0x00#8, 0x00#8, 0x00#8] waiting).facing .rxFrame []
    ∧ passesChecksum (([0x01#8, 0x00#8, 0x00#8, 0x00#8] : Frame).take 1000) = false :=
  ⟨⟨rfl, rfl⟩, by decide, by decide, ⟨rfl, rfl⟩, by decide⟩

/-- The four ends of a valid ACK: a deferred LAST is pushed, a data packet is pushed, a LAST command goes on
waiting, a LAST command ends. -/
theorem test_witness_validAck :
    (delivering (ack 0#8) lastDeferred).facing .rxFrame [] ∧ lastDeferred.sess.lastSent = false
    ∧ (delivering (ack 0#8) waiting).facing .rxFrame []
    ∧ ¬ loopCondition .middle waiting.window (waiting.sess.inFlight - 1#18).toInt
    ∧ (delivering (ack 0#8) lastPushed).facing .rxFrame [] ∧ (delivering (ack 0#8) lastPushed).st = .waitAck
    ∧ loopCondition .last lastPushed.window (lastPushed.sess.inFlight - 1#18).toInt
    ∧ (delivering (ack 1#8) lastPushed).facing .rxFrame []
    ∧ ¬ loopCondition .last lastPushed.window (lastPushed.sess.inFlight - 2#18).toInt
    ∧ 4 ≤ (ack 1#8).length ∧ passesChecksum ((ack 1#8).take 1000) = true := by
  refine ⟨⟨rfl, rfl⟩, by decide, ⟨rfl, rfl⟩, ?_, ⟨rfl, rfl⟩, by decide, .inr (by decide),
    ⟨rfl, rfl⟩, ?_, by decide, by decide⟩ <;> (unfold loopCondition; decide)

/-- An ACK of the newest outstanding number, and of the number already acknowledged. -/
theorem test_witness_ackRemoves :
    Inv (delivering (ack 2#8) waiting) ∧ 4 ≤ (ack 2#8).length ∧ passesChecksum ((ack 2#8).take 1000) = true
    ∧ waiting.sess.oldestSeq = waiting.headSeq
    ∧ (frameSeq (ack 2#8) - waiting.sess.oldestSeq + 1#16).toNat ≤ waiting.fifoLen
    ∧ (frameSeq [0xFE#8, 0xFF#8, 0xFF#8, 0x00#8] - waiting.sess.oldestSeq + 1#16).toNat = 0 :=
  ⟨inv_of_invCheck (by decide), by decide, by decide, by decide, by decide, by decide⟩

/-- An ACK of the number a push would take next. -/
theorem test_witness_staleAck :
    Inv (delivering (ack 3#8) waiting) ∧ 4 ≤ (ack 3#8).length ∧ passesChecksum ((ack 3#8).take 1000) = true
    ∧ waiting.fifoLen < (frameSeq (ack 3#8) - waiting.sess.oldestSeq + 1#16).toNat :=
  ⟨inv_of_invCheck (by decide), by decide, by decide, by decide⟩

theorem test_witness_byteReception :
    Inv (delivering [0x00#8] waiting) ∧ (delivering [0x00#8] waiting).st = .waitAck
    ∧ (delivering [0x00#8] waiting).source = { rest := [], waiting := [0x00#8] :: [] } :=
  ⟨inv_of_invCheck (by decide), by decide, by decide⟩

theorem test_witness_datagrams :
    ((idle []).popped [.rxDatagram []]).facing (.rxDatagram []) []
    ∧ (waiting.popped [.rxDatagram frame0]).facing (.rxDatagram frame0) [] := ⟨⟨rfl, rfl⟩, ⟨rfl, rfl⟩⟩

/-! ### Witnesses: ticks -/

/-- Idle, and in the first tick of an attempt of two. -/
theorem test_witness_tickCounts :
    ((idle []).popped [.tick]).facing .tick [] ∧ (idle []).st ≠ .waitAck ∧ (idle []).st ≠ .rx
    ∧ (waiting.popped [.tick]).facing .tick [] ∧ waiting.st = .waitAck
    ∧ ¬ waiting.cfg.ackWait.toNat ≤ min (waiting.timers.attemptCnt.toNat + 1) 65535 :=
  ⟨⟨rfl, rfl⟩, by decide, by decide, ⟨rfl, rfl⟩, by decide, by decide⟩

/-- `SESSION_CNT` reaches 4 of 5 in the tick that expires the attempt. -/
theorem test_witness_expiry :
    Inv (expiring .fatal 3#16) ∧ (expiring .fatal 3#16).inputs = .tick :: [] ∧ (expiring .fatal 3#16).st = .waitAck
    ∧ (expiring .fatal 3#16).cfg.ackWait.toNat ≤ min ((expiring .fatal 3#16).timers.attemptCnt.toNat + 1) 65535
    ∧ min ((expiring .fatal 3#16).timers.sessionCnt.toNat + 1) 65535 < (expiring .fatal 3#16).cfg.giveup.toNat :=
  ⟨inv_of_invCheck (by decide), by decide, by decide, by decide, by decide⟩

/-- `SESSION_CNT` reaches 5 of 5, under each policy. -/
theorem test_witness_giveup :
    (expiring .fatal 4#16).facing .tick [] ∧ (expiring .fatal 4#16).cfg.policy = .fatal
    ∧ (expiring .drop 4#16).facing .tick [] ∧ (expiring .drop 4#16).cfg.policy = .drop
    ∧ Inv (expiring .retry 4#16) ∧ (expiring .retry 4#16).inputs = .tick :: []
    ∧ (expiring .retry 4#16).cfg.policy = .retry ∧ (expiring .retry 4#16).st = .waitAck
    ∧ (expiring .retry 4#16).cfg.ackWait.toNat ≤ min ((expiring .retry 4#16).timers.attemptCnt.toNat + 1) 65535
    ∧ (expiring .retry 4#16).cfg.giveup.toNat ≤ min ((expiring .retry 4#16).timers.sessionCnt.toNat + 1) 65535 :=
  ⟨⟨rfl, rfl⟩, by decide, ⟨rfl, rfl⟩, by decide, inv_of_invCheck (by decide), by decide, by decide,
    by decide, by decide, by decide⟩

/-! ### Witnesses: the host bus -/

theorem test_witness_reads :
    (hostNext (.read 0x01C#12) (idle [])).facing (.host (.read 0x01C#12)) []
    ∧ (hostNext (.read 0x01C#12) (idle [])).st ≠ .codec := ⟨⟨rfl, rfl⟩, by decide⟩

/-- The first address of the windows and the last. -/
theorem test_witness_bufferAccess :
    bothWrites 0x400#12 1#32 (idle [])
    ∧ bothWrites 0xBFF#12 1#32 (idle [])
    ∧ (hostNext (.read 0x400#12) (idle [])).facing (.host (.read 0x400#12)) []
    ∧ (hostNext (.read 0xBFF#12) (idle [])).facing (.host (.read 0xBFF#12)) []
    ∧ (idle []).busy = false ∧ (idle []).st ≠ .codec
    ∧ 0x400 ≤ (0x400#12).toNat ∧ (0xBFF#12).toNat < 0xC00 :=
  ⟨bothWrites_of_codesLegal rfl, bothWrites_of_codesLegal rfl, ⟨rfl, rfl⟩, ⟨rfl, rfl⟩, by decide, by decide, by decide, by decide⟩

/-- First and last address of CBUF, the three registers, and the last address below CBUF. -/
theorem test_witness_codecReads :
    (hostNext (.read 0x800#12) (coding (.decode 0#32 0#32))).facing (.host (.read 0x800#12)) []
    ∧ (hostNext (.read 0xBFF#12) (coding (.decode 0#32 0#32))).facing (.host (.read 0xBFF#12)) []
    ∧ (coding (.decode 0#32 0#32)).st = .codec
    ∧ (0x058#12).toNat / 4 = 22 ∧ (0x05C#12).toNat / 4 = 23 ∧ (0x060#12).toNat / 4 = 24
    ∧ (0x7FF#12).toNat < 0x800 ∧ (0x7FF#12).toNat / 4 ≠ 22 ∧ (0x7FF#12).toNat / 4 ≠ 23
    ∧ (0x7FF#12).toNat / 4 ≠ 24 :=
  ⟨⟨rfl, rfl⟩, ⟨rfl, rfl⟩, by decide, by decide, by decide, by decide, by decide, by decide, by decide,
    by decide⟩

/-- Each way a write is ignored, and a write that is not. -/
theorem test_witness_ignored :
    bothWrites 0x008#12 3#32 (idle [])
    ∧ writeIgnored (target 0x008#12) 3#32 (idle []) ∧ writeIgnored (target 0x00C#12) 0x10000#32 (idle [])
    ∧ writeIgnored (target 0x00C#12) 9#32 (idle []) ∧ writeIgnored (target 0x00C#12) 1#32 (sent [] (idle []))
    ∧ writeIgnored (target 0x010#12) 0#32 (idle []) ∧ writeIgnored (target 0x014#12) 0#32 waiting
    ∧ writeIgnored (target 0x058#12) 0#32 waiting ∧ writeIgnored (target 0x7FC#12) 0#32 waiting
    ∧ writeIgnored (target 0xBFC#12) 0#32 waiting ∧ ¬ writeIgnored (target 0x018#12) 0#32 waiting := by
  refine ⟨bothWrites_of_codesLegal rfl, .inr (by decide), .inr (.inr (.inl (by decide))), .inr (.inr (.inr (by decide))),
    .inr (.inl (by decide)), .inr (by decide), ?_, ?_, ?_, ?_, ?_⟩
  · exact (by decide : waiting.busy = true)
  · exact (by decide : waiting.busy = true)
  · exact (by decide : waiting.busy = true)
  · exact (by decide : waiting.busy = true)
  · exact fun h => h

/-- A write of each register that is stored: the largest policy, the largest window, 1, and 0. -/
theorem test_witness_stored :
    bothWrites 0x008#12 2#32 (idle [])
    ∧ ¬ writeIgnored (.reg .ctrl) 2#32 (idle []) ∧ target 0x008#12 = .reg .ctrl
    ∧ ¬ writeIgnored (.reg .windowSize) 8#32 (idle []) ∧ target 0x00C#12 = .reg .windowSize
    ∧ ¬ writeIgnored (.reg .ackWait) 1#32 (idle []) ∧ target 0x010#12 = .reg .ackWait
    ∧ ¬ writeIgnored (.reg .giveup) 0#32 (idle []) ∧ target 0x014#12 = .reg .giveup
    ∧ ¬ writeIgnored (.reg .cbufLen) 1023#32 (idle []) ∧ target 0x058#12 = .reg .cbufLen
    ∧ ¬ writeIgnored (.reg .irqEnable) 31#32 (idle []) ∧ target 0x020#12 = .reg .irqEnable := by
  refine ⟨bothWrites_of_codesLegal rfl, ?_, by decide, ?_, by decide, ?_, by decide, ?_, by decide, ?_, by decide, ?_, by decide⟩ <;>
    (unfold writeIgnored; decide)

theorem test_witness_writeOneClears :
    bothWrites 0x024#12 31#32 waiting
    ∧ target 0x024#12 = .reg .irqPending := ⟨bothWrites_of_codesLegal rfl, by decide⟩

/-- The ends of both reserved ranges, and the first and last read-only register. -/
theorem test_witness_inert :
    (hostNext (.read 0x064#12) (idle [])).facing (.host (.read 0x064#12)) []
    ∧ bothWrites 0x060#12 1#32 (idle [])
    ∧ 25 ≤ (0x064#12).toNat / 4 ∧ (0x3FF#12).toNat / 4 < 0x100 ∧ 0x300 ≤ (0xC00#12).toNat / 4
    ∧ (0x000#12).toNat / 4 = 0 ∧ (0x060#12).toNat / 4 = 24 :=
  ⟨⟨rfl, rfl⟩, bothWrites_of_codesLegal rfl, by decide, by decide, by decide, by decide, by decide⟩

theorem test_witness_busyHost :
    (hostNext (.readWrite 0x400#12 1#32) waiting).facing (.host (.readWrite 0x400#12 1#32)) []
    ∧ (hostNext (.readWrite 0x400#12 1#32) waiting).busy = true := ⟨⟨rfl, rfl⟩, by decide⟩

/-! ### Witnesses: cycles, reset, the machine -/

/-- The cycle in which a codec command completes while the host writes. -/
def completing (h : HostAccess) : Cycle :=
  { rst := false, host := some h, codecGo := true, txReady := false, rxValid := false, tick := true }

theorem test_witness_cycle :
    Inv ((coding (.decode 0#32 0#32)).popped [.cycle (completing (.write 0x018#12 4#32))])
    ∧ Inv ((coding (.decode 0#32 0#32)).popped [.cycle (completing (.readWrite 0x024#12 31#32))])
    ∧ (HostAccess.write 0x018#12 4#32).writes 0x018#12 4#32 ∧ (HostAccess.readWrite 0x024#12 31#32).writes 0x024#12 31#32
    ∧ (coding (.decode 0#32 0#32)).st = .codec ∧ target 0x018#12 = .reg .cmd ∧ target 0x024#12 = .reg .irqPending :=
  ⟨inv_of_invCheck (by decide), inv_of_invCheck (by decide), .inl rfl, .inr rfl, by decide, by decide, by decide⟩

/-- The cycle in which a byte is received and a tick falls. -/
def byteAndTick : Cycle :=
  { rst := false, host := none, codecGo := false, txReady := false, rxValid := true, tick := true }

/-- The second and last byte of a malformed frame is about to be received. -/
def receiving : State :=
  { waiting with
    st := .rx
    rxr := { active := true, len := 1, b0 := 0#8, seq := 0#16, sum := 0#8 }
    source := { rest := [0x00#8], waiting := [] } }

/-- The byte and the tick together, where the byte ends the frame, and under `ACK_WAIT` = 2. -/
theorem test_witness_cycleTick :
    Inv (receiving.popped [.cycle byteAndTick]) ∧ receiving.st = .rx ∧ receiving.source.rest.length = 1
    ∧ after (step (receiving.popped [.rxByte, .tick])) State.st = some .waitAck ∧ 2 ≤ receiving.cfg.ackWait.toNat :=
  ⟨inv_of_invCheck (by decide), by decide, by decide, by decide, by decide⟩

/-- R823, R611: the byte that ends a frame goes before the tick, which finds the new attempt. -/
theorem test_byte_before_tick :
    after (step (receiving.popped [.cycle byteAndTick])) (fun t => (t.st, t.timers.attemptCnt)) = some (.waitAck, 1#16) := by
  decide

/-- `rst` alone and in a cycle, the latter from a fault state. -/
theorem test_witness_reset :
    (waiting.popped [.reset]).inputs = .reset :: [] ∧ Event.isReset .reset = true
    ∧ ({ waiting with st := .code6, inputs := [.cycle { completing (.write 0x018#12 4#32) with rst := true }] } : State).inputs
        = .cycle { completing (.write 0x018#12 4#32) with rst := true } :: []
    ∧ Event.isReset (.cycle { completing (.write 0x018#12 4#32) with rst := true }) = true
    ∧ waiting.st ≠ .codec := by decide

theorem test_witness_idle :
    CodesLegal (idle []) ∧ (idle []).st = .idle ∧ (idle []).inputs = []
    ∧ CodesLegal ((idle []).popped [.codecDone]) ∧ ((idle []).popped [.codecDone]).inputs = .codecDone :: []
    ∧ ((idle []).popped [.tick]).inputs = .tick :: [] := ⟨rfl, by decide, by decide, rfl, by decide, by decide⟩

theorem test_witness_faults :
    ({ idle [] with st := .code7, inputs := [.tick] } : State).inputs = .tick :: [] ∧ Event.isReset .tick = false
    ∧ ({ idle [] with st := .code7, inputs := [.tick] } : State).st = .code7
    ∧ ({ idle [] with err := 9#4, inputs := [.tick] } : State).st ≠ .code6
    ∧ ({ idle [] with err := 9#4, inputs := [.tick] } : State).st ≠ .code7
    ∧ 8 < ({ idle [] with err := 9#4, inputs := [.tick] } : State).err.toNat := by decide

/-- A state of the invariant whose step answers a next state: a retransmission. -/
theorem test_witness_invStep : Inv (expiring .fatal 3#16) ∧ after (step (expiring .fatal 3#16)) State.st = some .retx :=
  ⟨inv_of_invCheck (by decide), by decide⟩

theorem test_witness_memoryStep :
    Memory.wf (hostNext (.write 0x400#12 1#32) (idle [])).mem = true
    ∧ after (step (hostNext (.write 0x400#12 1#32) (idle []))) State.err = some 0#4 := by decide

/-- A tick that expires an attempt meets the hypotheses of the transition table and of the FIFO rule. -/
theorem test_witness_transitions :
    Inv (expiring .drop 4#16) ∧ (expiring .drop 4#16).inputs = .tick :: [] ∧ Event.isReset .tick = false
    ∧ Event.tick ≠ .rxFrame ∧ (∀ c, Event.tick ≠ .cycle c)
    ∧ after (step (expiring .drop 4#16)) State.st = some .idle :=
  ⟨inv_of_invCheck (by decide), by decide, by decide, by decide, by simp, by decide⟩

theorem test_witness_failedStays :
    ((failed (idle [])).popped [.tick]).inputs = .tick :: [] ∧ ((failed (idle [])).popped [.tick]).sess.failed = true
    ∧ after (step ((failed (idle [])).popped [.tick])) (fun t => t.sess.failed) = some true := by decide

/-- Busy, and idle but locked. -/
theorem test_witness_window :
    (waiting.popped [.tick]).inputs = .tick :: [] ∧ (waiting.popped [.tick]).busy = true
    ∧ ((sent [] (idle [])).popped [.tick]).inputs = .tick :: []
    ∧ ((sent [] (idle [])).popped [.tick]).sess.cfgLocked = true
    ∧ after (step (waiting.popped [.tick])) (fun t => t.cfg.wmax) = some 8#16 := by decide

end Sys2Proof.Tests
end

section
/-!
The host bus against the address map of 20_memory: what an address selects, and that reads and the writes of R205
are inert.
-/
namespace Sys2Proof.Machine

/-! ### The address map -/

theorem wordIndex_eq_div (a : BitVec 12) : wordIndex a = a.toNat / 4 := by
  unfold wordIndex
  rw [BitVec.extractLsb'_toNat, Nat.shiftRight_eq_div_pow]
  omega

/-- The gap above the last register and everything past the buffers select nothing (20_memory R205). -/
theorem target_eq_reserved {a : BitVec 12}
    (h : (25 ≤ a.toNat / 4 ∧ a.toNat / 4 < 0x100) ∨ 0x300 ≤ a.toNat / 4) : target a = .reserved := by
  rw [← wordIndex_eq_div] at h
  unfold target
  rcases h with ⟨low, high⟩ | high
  · have pastMap : regMap[wordIndex a]? = none := List.getElem?_eq_none low
    simp only [high, pastMap, if_true]
  · have h1 : ¬ wordIndex a < 0x100 := by omega
    have h2 : ¬ wordIndex a < 0x200 := by omega
    have h3 : ¬ wordIndex a < 0x300 := by omega
    simp only [h1, h2, h3, if_false]

theorem target_eq_reg {a : BitVec 12} {r : Reg} (h : regMap[a.toNat / 4]? = some r) : target a = .reg r := by
  rw [← wordIndex_eq_div] at h
  have inMap : wordIndex a < regMap.length := (List.getElem?_eq_some_iff.1 h).1
  have low : wordIndex a < 0x100 := Nat.lt_trans inMap (by decide)
  unfold target
  simp only [low, h, if_true]

/-- The registers marked `RO` in the table of 20_memory R204. -/
def Reg.readOnly : Reg → Bool
  | .ctrl | .windowSize | .ackWait | .giveup | .cmd | .irqEnable | .irqPending | .cbufLen => false
  | _ => true

theorem target_readOnly {a : BitVec 12}
    (h : a.toNat / 4 ∈ [0, 1, 7, 10, 11, 12, 13, 14, 15, 16, 17, 18, 19, 20, 21, 23, 24]) :
    ∃ r, target a = .reg r ∧ r.readOnly = true := by
  have rows : ∀ k ∈ [0, 1, 7, 10, 11, 12, 13, 14, 15, 16, 17, 18, 19, 20, 21, 23, 24],
      (regMap[k]?).any Reg.readOnly = true := by decide
  obtain ⟨r, selected, ro⟩ := (Option.any_eq_true _ _).1 (rows _ h)
  exact ⟨r, target_eq_reg selected, ro⟩

/-! ### Reads -/

/-- A host read in any state that is not a fault state is that of R700. -/
theorem step_of_read {s : State} {a : BitVec 12} {rest : List Event} (h : s.facing (.host (.read a)) rest) :
    step s = .next (hostRead a (s.popped rest)) :=
  step_of_facing h

/-- A reserved address reads 0 and draws no free value, even while a codec command runs (20_memory R205). -/
theorem hostRead_of_reserved {a : BitVec 12} (h : target a = .reserved) (s : State) :
    hostRead a s = { s with rdata := 0#32 } := by
  have noDraw : drawsFree s .reserved = false := Bool.and_false _
  simp [hostRead, readValue, readTarget, h, noDraw]

/-- Settles O38: `hostRead` writes `rdata` and `freeCount` only. -/
theorem readsHaveNoSideEffect : Obligations.ReadsHaveNoSideEffect :=
  fun _ _ _ facing => ⟨_, _, step_of_read facing⟩

/-! ### Writes that are dropped -/

theorem hostWrite_of_reserved {a : BitVec 12} (h : target a = .reserved) (v : Word) (s : State) :
    hostWrite a v s = .next s := by
  simp [hostWrite, h]

theorem hostWrite_of_readOnly {a : BitVec 12} {r : Reg} (h : target a = .reg r) (ro : r.readOnly = true)
    (v : Word) (s : State) : hostWrite a v s = .next s := by
  unfold hostWrite
  rw [h]
  cases r with
  | ctrl | windowSize | ackWait | giveup | cmd | irqEnable | irqPending | cbufLen => simp [Reg.readOnly] at ro
  | _ => rfl

/-- Settles O47: the read by the value of a reserved address, the write by what its address selects. -/
theorem reservedAndReadOnlyAreInert : Obligations.ReservedAndReadOnlyAreInert := by
  intro s h a v rest
  refine ⟨fun facing gap => ?_, fun facing writes inert => answersWrite_of_hostWrite facing writes ?_⟩
  · rw [step_of_read facing, hostRead_of_reserved (target_eq_reserved gap)]
  · rcases inert with ro | gap
    · obtain ⟨r, selected, readOnly⟩ := target_readOnly ro
      exact hostWrite_of_readOnly selected readOnly v _
    · exact hostWrite_of_reserved (target_eq_reserved gap) v _

end Sys2Proof.Machine
end

section
/-!
The codec functions of 40_codec, section 1: the checksum as a sum and as an accumulator, the checksum test, and the
splitting of a frame; and the length check of DECODE.
-/
namespace Sys2Proof.Machine

/-! ### The checksum -/

theorem checksum_toNat (b : List Byte) : (checksum b).toNat = (b.map BitVec.toNat).sum % 256 :=
  BitVec.toNat_ofNat _ 8

/-- The wrapping accumulator of R406, started at any value. -/
theorem foldl_add_eq_add_checksum (acc : Byte) (b : List Byte) :
    b.foldl (fun acc x => acc + x) acc = acc + checksum b := by
  induction b generalizing acc with
  | nil => simp
  | cons x b ih => rw [List.foldl_cons, ih, checksum_cons, BitVec.add_assoc]

/-- Settles O5: the sum by the definition, the accumulator by induction from every start value. -/
theorem checksumIsByteSumMod256 : Obligations.ChecksumIsByteSumMod256 := by
  refine ⟨checksum_nil, fun b => ⟨checksum_toNat b, ?_⟩⟩
  rw [foldl_add_eq_add_checksum, BitVec.zero_add]

/-! ### What the checksum test sees -/

theorem checksum_eq_iff (b b' : List Byte) :
    checksum b = checksum b' ↔ (b.map BitVec.toNat).sum % 256 = (b'.map BitVec.toNat).sum % 256 := by
  rw [← BitVec.toNat_inj, checksum_toNat, checksum_toNat]

theorem checksum_eq_of_perm {b b' : List Byte} (h : b.Perm b') : checksum b = checksum b' :=
  congrArg (BitVec.ofNat 8) (h.map BitVec.toNat).sum_eq

theorem passesChecksum_cons_iff (x : Byte) (b : List Byte) :
    passesChecksum (x :: b) = true ↔ x = checksum b :=
  decide_eq_true_iff

/-- The test sees the covered bytes through their checksum only. -/
theorem passesChecksum_of_checksum_eq {x : Byte} {b b' : List Byte} (passes : passesChecksum (x :: b) = true)
    (same : checksum b = checksum b') : passesChecksum (x :: b') = true := by
  rw [passesChecksum_cons_iff] at passes ⊢
  exact passes.trans same

/-- Settles O10: an equal sum mod 256 is an equal checksum, and a permutation keeps the sum. -/
theorem reorderingIsNotDetected : Obligations.ReorderingIsNotDetected := by
  intro x covered covered' passes
  exact ⟨fun sameSum => passesChecksum_of_checksum_eq passes ((checksum_eq_iff _ _).2 sameSum),
    fun perm => passesChecksum_of_checksum_eq passes (checksum_eq_of_perm perm)⟩

/-! ### Splitting a frame -/

theorem frameSeq_toNat (b : Frame) : (frameSeq b).toNat = (byteAt b 1).toNat * 256 + (byteAt b 2).toNat := by
  rw [frameSeq, BitVec.toNat_append, ← Nat.shiftLeft_add_eq_or_of_lt (byteAt b 2).isLt, Nat.shiftLeft_eq]

theorem decodeFrame_of_short (b : List Byte) (h : b.length < 4) : decodeFrame b = none := by
  match b, h with
  | [], _ | [_], _ | [_, _], _ | [_, _, _], _ => rfl
  | _ :: _ :: _ :: _ :: _, h => simp only [List.length_cons] at h; omega

theorem decodeFrame_of_long (b : List Byte) (h : 4 ≤ b.length) :
    decodeFrame b = some
      { expectedChecksum := checksum (b.drop 1)
        receivedChecksum := byteAt b 0
        sequenceNumber := frameSeq b
        flag := byteAt b 3
        payload := b.drop 4 } := by
  match b, h with
  | [], h | [_], h | [_, _], h | [_, _, _], h => simp at h
  | _ :: _ :: _ :: _ :: _, _ => rfl

/-- Settles O7: the cases of a frame below 4 bytes and from 4 on. -/
theorem decodeFrameSplits : Obligations.DecodeFrameSplits := fun b =>
  ⟨decodeFrame_of_short b, fun long =>
    ⟨_, decodeFrame_of_long b long, checksum_toNat _, rfl, frameSeq_toNat b, rfl, rfl⟩⟩

/-! ### DECODE of a malformed length -/

theorem malformedCheck_of_malformed (s : State)
    (h : s.codec.cbufLen.toNat < 4 ∨ 1000 < s.codec.cbufLen.toNat) : malformedCheck s = some errMalformed :=
  if_pos h

/-- Completion with an error raises DONE and ERR (60_exceptions R806). -/
theorem complete_of_error {code : ErrCode} (h : code ≠ errOk) (s : State) : complete code s = s.endedWith code := by
  rw [complete, if_neg h]
  rfl

/-- Settles O17: an idle block refuses at the length check, and refusal is completion with ERR_MALFORMED. -/
theorem decodeRefusesMalformedLengths : Obligations.DecodeRefusesMalformedLengths := by
  intro s idle malformed
  calc exec .decode s
      = .next (issue (malformedCheck s) acceptDecode s) := rfl
    _ = .next (complete errMalformed s) := by
        rw [malformedCheck_of_malformed s malformed, issue_refused _ _ s idle]
    _ = .next (s.endedWith 5#4) := by
        rw [complete_of_error (by decide)]
        rfl

end Sys2Proof.Machine
end

section
/-!
The reception of one whole frame (42_arq_events R602 to R605): the RX registers after its bytes, the state at its
end, and what a malformed frame, one with a bad checksum, and a valid ACK then do.
-/
namespace Sys2Proof.Machine

/-! ### The RX registers over the bytes of a frame -/

/-- The RX registers after the bytes of `f`. -/
def RxRegs.takeAll (r : RxRegs) (f : Frame) : RxRegs := f.foldl RxRegs.take r

@[simp] theorem RxRegs.takeAll_nil (r : RxRegs) : r.takeAll [] = r := rfl

@[simp] theorem RxRegs.takeAll_cons (r : RxRegs) (x : Byte) (f : Frame) :
    r.takeAll (x :: f) = (r.take x).takeAll f := rfl

@[simp] theorem RxRegs.takeAll_concat (r : RxRegs) (f : Frame) (x : Byte) :
    r.takeAll (f ++ [x]) = (r.takeAll f).take x := List.foldl_concat ..

theorem RxRegs.take_len (r : RxRegs) (x : Byte) :
    (r.take x).len = if r.len < 1001 then r.len + 1 else r.len := rfl

theorem RxRegs.take_sum (r : RxRegs) (x : Byte) :
    (r.take x).sum = if 1 ≤ r.len ∧ r.len ≤ 999 then r.sum + x else r.sum := rfl

theorem RxRegs.takeAll_active (r : RxRegs) (f : Frame) : (r.takeAll f).active = r.active := by
  induction f generalizing r with
  | nil => rfl
  | cons x f ih => exact ih (r.take x)

/-- `RX_LEN` counts up to 1001 and is then held. -/
theorem RxRegs.takeAll_len {r : RxRegs} (fresh : r.len = 0) (f : Frame) :
    (r.takeAll f).len = min f.length 1001 := by
  induction f using List.reverseRecOn with
  | nil => exact fresh
  | append_singleton f x ih =>
    rw [RxRegs.takeAll_concat, RxRegs.take_len, ih, List.length_append, List.length_singleton]
    split <;> omega

theorem checksum_concat (b : List Byte) (x : Byte) : checksum (b ++ [x]) = checksum b + x := by
  rw [checksum_eq_of_perm (List.perm_append_singleton x b), checksum_cons, BitVec.add_comm]

/-- `RX_SUM` is the checksum of bytes 1 to 999, as the test of a frame cut at 1000 bytes wants it. -/
theorem RxRegs.takeAll_sum {r : RxRegs} (fresh : r.len = 0) (zero : r.sum = 0#8) (f : Frame) :
    (r.takeAll f).sum = checksum (f.take 1000).tail := by
  induction f using List.reverseRecOn with
  | nil => exact zero
  | append_singleton f x ih =>
    rw [RxRegs.takeAll_concat, RxRegs.take_sum, RxRegs.takeAll_len fresh f, ih]
    rcases Nat.lt_or_ge f.length 1000 with short | long
    · have whole : (f ++ [x]).length ≤ 1000 := by
        rw [List.length_append, List.length_singleton]
        omega
      rw [List.take_of_length_le (by omega), List.take_of_length_le whole]
      cases f with
      | nil => rfl
      | cons y g =>
        have counted : 1 ≤ min (y :: g).length 1001 ∧ min (y :: g).length 1001 ≤ 999 := by
          simp only [List.length_cons] at short ⊢
          omega
        rw [if_pos counted]
        exact (checksum_concat g x).symm
    · rw [if_neg (by omega), List.take_append_of_le_length long]

/-- `RX_B0` and `RX_SEQ` keep their values once the bytes they hold have come. -/
theorem RxRegs.takeAll_header_kept {r : RxRegs} (h : 3 ≤ r.len) (f : Frame) :
    (r.takeAll f).b0 = r.b0 ∧ (r.takeAll f).seq = r.seq := by
  induction f generalizing r with
  | nil => exact ⟨rfl, rfl⟩
  | cons x f ih =>
    have len : 3 ≤ (r.take x).len := by rw [RxRegs.take_len]; split <;> omega
    have b0 : (r.take x).b0 = r.b0 := if_neg (by omega)
    have seq : (r.take x).seq = r.seq := by simp [RxRegs.take, show r.len ≠ 1 by omega, show r.len ≠ 2 by omega]
    rw [RxRegs.takeAll_cons, (ih len).1, (ih len).2, b0, seq]
    exact ⟨rfl, rfl⟩

/-- `RX_B0` and `RX_SEQ` hold bytes 0 to 2 of a frame that has them. -/
theorem RxRegs.takeAll_header {r : RxRegs} (fresh : r.len = 0) {f : Frame} (long : 3 ≤ f.length) :
    (r.takeAll f).b0 = byteAt f 0 ∧ (r.takeAll f).seq = frameSeq f := by
  match f, long with
  | a :: b :: c :: tail, _ =>
    have len : (r.takeAll [a, b, c]).len = 3 := RxRegs.takeAll_len fresh _
    have kept := RxRegs.takeAll_header_kept (Nat.le_of_eq len.symm) tail
    have b0 : (r.takeAll [a, b, c]).b0 = a := by simp [RxRegs.take, fresh]
    have high : ∀ low : Byte, (b ++ low : Seq).extractLsb' 8 8 = b := fun _ => BitVec.extractLsb'_append_eq_left
    have seq : (r.takeAll [a, b, c]).seq = b ++ c := by simp [RxRegs.take, fresh, high]
    exact ⟨kept.1.trans b0, kept.2.trans seq⟩

/-- The end of a frame of at least 4 bytes tests the checksum of its first 1000 bytes (42_arq_events R604). -/
theorem RxRegs.takeAll_sum_eq_b0_iff {r : RxRegs} (fresh : r.len = 0) (zero : r.sum = 0#8) {f : Frame}
    (long : 4 ≤ f.length) :
    (r.takeAll f).b0 = (r.takeAll f).sum ↔ passesChecksum (f.take 1000) = true := by
  have head : byteAt (f.take 1000) 0 = byteAt f 0 := by simp [byteAt, List.getD]
  rw [(RxRegs.takeAll_header fresh (by omega)).1, RxRegs.takeAll_sum fresh zero, ← head]
  exact decide_eq_true_iff.symm

/-! ### The state at the end of a frame -/

/-- What the bytes `f` add to `TRUNC_COUNT` when `n` bytes of the frame came before (42_arq_events R602). -/
def truncIncrement (n : Nat) (f : Frame) : Word := if n ≤ 1000 ∧ 1000 < n + f.length then 1#32 else 0#32

theorem truncIncrement_singleton (n : Nat) (x : Byte) :
    truncIncrement n [x] = if n = 1000 then 1#32 else 0#32 :=
  if_congr (by simp only [List.length_singleton]; omega) rfl rfl

/-- A frame is counted once: at its first byte here, or at a later one. -/
theorem truncIncrement_cons (r : RxRegs) (x : Byte) (f : Frame) :
    truncIncrement r.len (x :: f) = truncIncrement r.len [x] + truncIncrement (r.take x).len f := by
  rw [truncIncrement_singleton, RxRegs.take_len]
  unfold truncIncrement
  rw [List.length_cons]
  rcases Nat.lt_trichotomy r.len 1000 with below | here | above
  · rw [if_neg (show r.len ≠ 1000 by omega), if_pos (show r.len < 1001 by omega), BitVec.zero_add]
    exact if_congr (by omega) rfl rfl
  · simp [here]
  · simp [show ¬ r.len ≤ 1000 by omega, show r.len ≠ 1000 by omega, show ¬ r.len < 1001 by omega]

/-- `s` in RX with the bytes `f` of the frame taken, none of which has ended it. -/
def State.received (f : Frame) (s : State) : State :=
  { s with
    rxr := s.rxr.takeAll f
    counters := { s.counters with trunc := s.counters.trunc + truncIncrement s.rxr.len f } }

theorem received_cons (x : Byte) (f : Frame) (s : State) : (s.received [x]).received f = s.received (x :: f) := by
  simp only [State.received, truncIncrement_cons s.rxr x f, RxRegs.takeAll_cons, RxRegs.takeAll_nil, BitVec.add_assoc]

/-- One byte in RX, the frame's last or not (42_arq_events R602). -/
theorem receiveByte_of_rx {s : State} (rx : s.st = .rx) (x : Byte) (isLast : Bool) :
    receiveByte x isLast s = if isLast then endRxFrame (s.received [x]) else s.received [x] := by
  have opened : openRxFrame s = s := if_neg (by rw [rx]; decide)
  have count : (if s.rxr.len = 1000 then s.counters.trunc + 1#32 else s.counters.trunc)
      = s.counters.trunc + truncIncrement s.rxr.len [x] := by
    rw [truncIncrement_singleton]
    split <;> simp
  simp only [receiveByte, opened, count]
  rfl

theorem receiveBytes_of_rx {s : State} (rx : s.st = .rx) {f : Frame} (nonempty : f ≠ []) :
    receiveBytes f s = endRxFrame (s.received f) := by
  induction f generalizing s with
  | nil => exact absurd rfl nonempty
  | cons x f ih =>
    cases f with
    | nil => exact receiveByte_of_rx rx x true
    | cons y tail =>
      have first : receiveByte x false s = s.received [x] := receiveByte_of_rx rx x false
      calc receiveBytes (x :: y :: tail) s
          = receiveBytes (y :: tail) (s.received [x]) := by rw [receiveBytes, first]
        _ = endRxFrame (s.received (x :: y :: tail)) := by
            rw [ih (s := s.received [x]) rx (by simp), received_cons]

/-- `s` in RX with all the bytes of the frame `f` taken. -/
def State.frameTaken (s : State) (f : Frame) : State :=
  { s with
    st := .rx
    rxr := RxRegs.takeAll { s.rxr with active := true, len := 0, sum := 0#8 } f
    counters := { s.counters with
      trunc := s.counters.trunc + (if 1000 < f.length then 1#32 else 0#32) } }

/-- The first byte of a frame in WAIT_ACK opens it, and the rest follow in RX (42_arq_events R602). -/
theorem receiveBytes_of_waitAck {s : State} (wait : s.st = .waitAck) {f : Frame} (nonempty : f ≠ []) :
    receiveBytes f s = endRxFrame (s.frameTaken f) := by
  have openedOnce : openRxFrame (openRxFrame s) = openRxFrame s := by simp [openRxFrame, wait]
  have first : ∀ x isLast, receiveByte x isLast s = receiveByte x isLast (openRxFrame s) := by
    intro x isLast
    simp only [receiveByte, openedOnce]
  have opens : receiveBytes f s = receiveBytes f (openRxFrame s) := by
    match f, nonempty with
    | [x], _ => exact first x true
    | x :: y :: tail, _ => rw [receiveBytes, receiveBytes, first x false]
  have rx : (openRxFrame s).st = .rx := by simp [openRxFrame, wait]
  have taken : (openRxFrame s).received f = s.frameTaken f := by
    simp [openRxFrame, wait, State.received, State.frameTaken, truncIncrement]
  rw [opens, receiveBytes_of_rx rx nonempty, taken]

/-- `s` with the next event and the datagram it delivers taken off their queues. -/
def State.delivered (s : State) (rest : List Event) (later : List Frame) : State :=
  { s.popped rest with source := { rest := [], waiting := later } }

/-- One whole frame in WAIT_ACK: all its bytes are taken, then it ends (20_memory R224). -/
theorem step_of_rxFrame {s : State} {f : Frame} {later : List Frame} {rest : List Event}
    (facing : s.facing .rxFrame rest) (wait : s.st = .waitAck)
    (source : s.source = { rest := [], waiting := f :: later }) (nonempty : f ≠ []) :
    step s = .next (endRxFrame ((s.delivered rest later).frameTaken f)) := by
  have waiting : (s.delivered rest later).st = .waitAck := wait
  have delivers : rxFrameStep (s.popped rest) = receiveBytes f (s.delivered rest later) := by
    simp [rxFrameStep, State.delivered, State.popped, wait, source]
  calc step s
      = .next (rxFrameStep (s.popped rest)) := step_of_facing facing
    _ = .next (endRxFrame ((s.delivered rest later).frameTaken f)) := by
        rw [delivers, receiveBytes_of_waitAck waiting nonempty]

theorem frameTaken_len (s : State) (f : Frame) : (s.frameTaken f).rxr.len = min f.length 1001 :=
  RxRegs.takeAll_len rfl f

theorem frameTaken_passes_iff (s : State) {f : Frame} (long : 4 ≤ f.length) :
    (s.frameTaken f).rxr.b0 = (s.frameTaken f).rxr.sum ↔ passesChecksum (f.take 1000) = true :=
  RxRegs.takeAll_sum_eq_b0_iff rfl rfl long

theorem frameTaken_seq (s : State) {f : Frame} (long : 4 ≤ f.length) : (s.frameTaken f).rxr.seq = frameSeq f :=
  (RxRegs.takeAll_header rfl (by omega)).2

/-! ### Frames that are dropped -/

/-- Settles O27: of the three ends of a frame, the valid ACK is excluded, and the length tells the other two apart. -/
theorem badFramesAreCountedAndDropped : Obligations.BadFramesAreCountedAndDropped := by
  intro s f later rest facing wait source nonempty bad
  have len := frameTaken_len (s.delivered rest later) f
  rw [step_of_rxFrame facing wait source nonempty]
  refine ⟨{ ((s.delivered rest later).frameTaken f).rxr with active := false }, rfl, ?_⟩
  rcases endRxFrame_spec ((s.delivered rest later).frameTaken f) with
    ⟨short, ended⟩ | ⟨long, -, ended⟩ | ⟨long, equal, -⟩
  · have malformed : f.length < 4 := by omega
    rw [ended]
    simp only [malformed, if_true, BitVec.add_zero]
    rfl
  · have wellFormed : ¬ f.length < 4 := by omega
    rw [ended]
    simp only [wellFormed, if_false, BitVec.add_zero]
    rfl
  · have passes := (frameTaken_passes_iff _ (by omega)).1 equal
    have fails := bad.resolve_left (by omega)
    exact absurd (fails.symm.trans passes) Bool.false_ne_true

/-! ### Valid ACKs -/

/-- The cumulative count of R621 as a number: `(acked - oldest + 1) mod 65536`. -/
theorem ackCountOf_eq_ofNat (acked oldest : Seq) :
    ackCountOf acked oldest = BitVec.ofNat 16 (acked.toNat + 65537 - oldest.toNat) := by
  apply BitVec.eq_of_toNat_eq
  simp only [ackCountOf, BitVec.toNat_add, BitVec.toNat_sub, BitVec.toNat_ofNat]
  omega

/-- `dropAcked` with the count as a number (42_arq_events R621, R622). -/
theorem dropAcked_eq (acked : Seq) (s : State) (c : Nat) (count : c = acked.toNat + 65537 - s.sess.oldestSeq.toNat) :
    dropAcked acked s =
      { s with
        sess := { s.sess with
          fifo := s.sess.fifo.drop (c % 65536)
          inFlight := s.sess.inFlight - BitVec.ofNat 18 (c % 65536)
          oldestSeq := s.sess.oldestSeq + BitVec.ofNat 16 c }
        timers := { s.timers with
          sessionCnt := if s.sess.fifo.drop (c % 65536) = [] then s.timers.sessionCnt else 0#16 } } := by
  have modulo : (BitVec.ofNat 16 c).toNat = c % 65536 := BitVec.toNat_ofNat c 16
  have widened : (BitVec.ofNat 16 c).setWidth 18 = BitVec.ofNat 18 (c % 65536) := by
    rw [← modulo, BitVec.ofNat_toNat]
  simp only [dropAcked, ackCountOf_eq_ofNat, ← count, modulo, widened]

/-- `s` with the frame `f` taken, ended, and counted as a valid ACK. -/
def State.ackTaken (s : State) (f : Frame) : State :=
  { s.frameTaken f with
    rxr := { (s.frameTaken f).rxr with active := false }
    counters := { (s.frameTaken f).counters with ack := s.counters.ack + 1#32 } }

/-- A frame that passes the checksum test is an ACK of the number it carries (42_arq_events R604, R620). -/
theorem endRxFrame_of_validAck (s : State) {f : Frame} (long : 4 ≤ f.length)
    (passes : passesChecksum (f.take 1000) = true) :
    endRxFrame (s.frameTaken f) = afterAck (dropAcked (frameSeq f) (s.ackTaken f)) := by
  have len := frameTaken_len s f
  have equal := (frameTaken_passes_iff s long).2 passes
  rcases endRxFrame_spec (s.frameTaken f) with ⟨short, -⟩ | ⟨-, differ, -⟩ | ⟨-, -, ended⟩
  · omega
  · exact absurd equal differ
  · rw [ended, frameTaken_seq s long]
    rfl

/-- A push, with `LAST_SENT` and the session timer after it given (41_arq_send R510). -/
theorem push_eq (f : Frame) (k : TxCont) (s : State) {sent : Bool} {timer : BitVec 16}
    (hsent : (if s.sess.curFlag = .last then true else s.sess.lastSent) = sent)
    (htimer : (if s.sess.fifo = [] then 0#16 else s.timers.sessionCnt) = timer) :
    push f k s =
      { s with
        st := .tx
        sess := { s.sess with fifo := s.sess.fifo ++ [f], nextSeq := s.sess.nextSeq + 1#16, lastSent := sent }
        timers := { s.timers with sessionCnt := timer }
        emission := { queue := [f], index := 0, cont := k } } := by
  subst hsent htimer
  rfl

/-- Settles O28: the end of a valid ACK, with the ends of the wait loop one by one. A push always starts the session
timer: R510 clears it when the ACK left no frame, and R622 when it left some. -/
theorem validAckIsCumulative : Obligations.ValidAckIsCumulative := by
  intro s f later rest facing wait source long passes c left flight
  have nonempty : f ≠ [] := List.ne_nil_of_length_pos (by omega)
  refine ⟨{ ((s.delivered rest later).frameTaken f).rxr with active := false }, rfl, ?_⟩
  intro b pushed
  have acked : step s = .next (afterAck { b with st := .rx }) := by
    rw [step_of_rxFrame facing wait source nonempty, endRxFrame_of_validAck _ long passes,
      dropAcked_eq _ ((s.delivered rest later).ackTaken f) c rfl]
    rfl
  have timer : (if left = [] then 0#16 else if left = [] then s.timers.sessionCnt else 0#16) = 0#16 := by
    split <;> rfl
  have holds : loopHolds { b with st := .rx } = true ↔ loopCondition s.sess.curFlag s.window flight.toInt :=
    loopHolds_iff _
  rw [acked]
  rcases afterAck_spec { b with st := .rx } with ⟨last, unsent, pushes⟩ | ⟨other, tests⟩
  · rw [if_pos ⟨last, unsent⟩, pushes]
    exact congrArg _ (push_eq _ _ _ (if_pos last) timer)
  · rw [if_neg other, tests, ← holds]
    rcases loopTest_spec { b with st := .rx } with ⟨loop, next⟩ | ⟨leave, last, next⟩ | ⟨leave, data, next⟩
    · rw [next]
      exact ⟨fun _ => rfl, fun no => absurd loop no, fun no => absurd loop no⟩
    · rw [next]
      exact ⟨fun yes => absurd (leave.symm.trans yes) Bool.false_ne_true, fun _ _ => rfl,
        fun _ data => absurd last data⟩
    · rw [next]
      exact ⟨fun yes => absurd (leave.symm.trans yes) Bool.false_ne_true, fun _ last => absurd last data,
        fun _ _ => congrArg _ (push_eq _ _ _ (if_neg data) timer)⟩

end Sys2Proof.Machine
end

section
/-!
Ticks that expire an attempt at or past the giveup bound (42_arq_events R610, R611, R640), and what the DROP and
RETRY policies then do (R642, R643).
-/
namespace Sys2Proof.Machine

/-! ### The timers at an expiry -/

theorem satSucc_toNat (v : BitVec 16) : (satSucc v).toNat = min (v.toNat + 1) 65535 := by
  rw [satSucc, BitVec.toNat_ofNat]
  omega

theorem attemptCnt_tickTimers_of_waitAck {s : State} (wait : s.st = .waitAck) :
    (tickTimers s).timers.attemptCnt = satSucc s.timers.attemptCnt :=
  if_pos ((rxReady_eq_true_iff s).2 (.inl wait))

theorem attemptExpired_tickTimers_iff {s : State} (wait : s.st = .waitAck) :
    attemptExpired (tickTimers s) = true ↔ s.cfg.ackWait.toNat ≤ min (s.timers.attemptCnt.toNat + 1) 65535 := by
  rw [attemptExpired_iff, attemptCnt_tickTimers_of_waitAck wait, satSucc_toNat]
  exact and_iff_right wait

/-- An expiry at or past the bound is a giveup (42_arq_events R630, R640). -/
theorem step_of_giveup {s : State} {rest : List Event} (facing : s.facing .tick rest) (wait : s.st = .waitAck)
    (expires : s.cfg.ackWait.toNat ≤ min (s.timers.attemptCnt.toNat + 1) 65535)
    (bound : s.cfg.giveup.toNat ≤ min (s.timers.sessionCnt.toNat + 1) 65535) :
    step s = .next (giveUp (tickTimers (s.popped rest))) := by
  have expired : attemptExpired (tickTimers (s.popped rest)) = true :=
    (attemptExpired_tickTimers_iff (s := s.popped rest) wait).2 expires
  have reached : s.cfg.giveup.toNat ≤ (tickTimers (s.popped rest)).timers.sessionCnt.toNat :=
    bound.trans_eq (satSucc_toNat _).symm
  rw [step_of_facing facing]
  rcases tickStep_spec (s.popped rest) with ⟨alive, -⟩ | ⟨-, below, -⟩ | ⟨-, -, gaveUp⟩
  · exact absurd (alive.symm.trans expired) Bool.false_ne_true
  · exact absurd reached (Nat.not_le.2 below)
  · exact congrArg _ gaveUp

/-! ### The DROP policy -/

/-- Settles O36: a giveup in a waiting state, under DROP. -/
theorem dropGiveupStartsAFreshSession : Obligations.DropGiveupStartsAFreshSession := by
  intro s rest facing wait policy expires bound
  refine ⟨satSucc s.timers.attemptCnt, satSucc_toNat _, ?_⟩
  rw [step_of_giveup facing wait expires bound]
  rcases giveUp_spec (tickTimers (s.popped rest)) with ⟨fatal, -⟩ | ⟨-, drops⟩ | ⟨retry, -⟩
  · exact absurd (policy.symm.trans fatal) (by decide)
  · rw [drops, ← attemptCnt_tickTimers_of_waitAck (s := s) wait]
    rfl
  · exact absurd (policy.symm.trans retry) (by decide)

/-! ### The RETRY policy -/

/-- Inside the wait loop a frame is outstanding: the loop condition holds `IN_FLIGHT` above 0, and the FIFO holds at
least as many frames (10_state R132, R133; 41_arq_send R503). -/
theorem fifo_ne_nil_of_looping {s : State} (inv : Inv s) (looping : s.looping) : s.sess.fifo ≠ [] := by
  have window : (1 : Int) ≤ s.window := Int.ofNat_le.2 inv.config.windowLow
  have positive : 0 < s.flight := by
    rcases (loopHolds_iff s).1 (inv.session.loopOn looping) with full | ⟨-, unacked⟩
    · omega
    · exact unacked
  have count : 0 < s.fifoLen := by
    rcases inv.session.loopCount looping with pushed | notPushed
    · have := pushed.atLeast
      omega
    · have := notPushed.count
      omega
  exact List.ne_nil_of_length_pos count

theorem retransmit_of_fifo_ne_nil {s : State} (outstanding : s.sess.fifo ≠ []) :
    retransmit s = roundOpened .loop { s with timers := { s.timers with sessionCnt := 0#16 } } := by
  rcases startRound_spec .loop { s with timers := { s.timers with sessionCnt := 0#16 } } with
    ⟨-, opened⟩ | ⟨empty, -⟩
  · exact opened
  · exact absurd empty outstanding

/-- Settles O37: a giveup in a waiting state, under RETRY; the round has a frame to emit by the invariant. -/
theorem retryGiveupRetransmits : Obligations.RetryGiveupRetransmits := by
  intro s rest inv next wait policy expires bound
  have outstanding : s.sess.fifo ≠ [] := fifo_ne_nil_of_looping inv (.inl wait)
  refine ⟨satSucc s.timers.attemptCnt, satSucc_toNat _, ?_⟩
  rw [step_of_giveup ⟨next, inv.codes⟩ wait expires bound]
  rcases giveUp_spec (tickTimers (s.popped rest)) with ⟨fatal, -⟩ | ⟨drop, -⟩ | ⟨-, retries⟩
  · exact absurd (policy.symm.trans fatal) (by decide)
  · exact absurd (policy.symm.trans drop) (by decide)
  · rw [retries, retransmit_of_fifo_ne_nil (s := setPending giveupBit (tickTimers (s.popped rest))) outstanding,
      ← attemptCnt_tickTimers_of_waitAck (s := s) wait]
    rfl

end Sys2Proof.Machine
end

section
/-!
Which writes of the host set `IRQ_PENDING.WR_IGNORED` (43_host_bus R705): the ignored ones, which then do nothing
else; and the `CMD` write while `BUSY` = 1 (R704), which is never one of them.
-/
namespace Sys2Proof.Machine

/-! ### The writes of R705, one specification per register -/

/-- The illegal policy is 3 (10_state R162). -/
theorem GiveupPolicy.ofField?_eq_none_iff (v : Word) :
    GiveupPolicy.ofField? (v.extractLsb' 0 2) = none ↔ v.toNat % 4 = 3 := by
  have field : (v.extractLsb' 0 2).toNat = v.toNat % 4 := by simp
  have codes : ∀ f : BitVec 2, GiveupPolicy.ofField? f = none ↔ f.toNat = 3 := by decide
  rw [codes, field]

theorem writeCtrl_spec (v : Word) (s : State) :
    (writeIgnored (.reg .ctrl) v s ∧ writeCtrl v s = ignoreWrite s)
    ∨ (¬ writeIgnored (.reg .ctrl) v s ∧ ∃ p, GiveupPolicy.ofField? (v.extractLsb' 0 2) = some p
        ∧ writeCtrl v s = { s with cfg := { s.cfg with policy := p } }) := by
  have illegal := GiveupPolicy.ofField?_eq_none_iff v
  unfold writeCtrl writeIgnored
  cases field : GiveupPolicy.ofField? (v.extractLsb' 0 2) with
  | none => exact .inl ⟨.inr (illegal.1 field), rfl⟩
  | some p =>
    have legal : ¬ v.toNat % 4 = 3 := fun h => by simp [illegal.2 h] at field
    cases busy : s.busy with
    | true => exact .inl ⟨.inl rfl, rfl⟩
    | false => exact .inr ⟨by simp [legal], p, rfl, rfl⟩

theorem writeWindowSize_spec (v : Word) (s : State) :
    (writeIgnored (.reg .windowSize) v s ∧ writeWindowSize v s = ignoreWrite s)
    ∨ (¬ writeIgnored (.reg .windowSize) v s
        ∧ writeWindowSize v s = { s with cfg := { s.cfg with windowSize := v.extractLsb' 0 16 } }) := by
  have guard : (s.busy ∨ s.sess.cfgLocked ∨ v.extractLsb' 0 16 = 0#16 ∨ s.cfg.wmax.toNat < (v.extractLsb' 0 16).toNat)
      ↔ writeIgnored (.reg .windowSize) v s := by
    simp [writeIgnored, ← BitVec.toNat_inj]
  by_cases ignored : writeIgnored (.reg .windowSize) v s
  · exact .inl ⟨ignored, if_pos (guard.2 ignored)⟩
  · exact .inr ⟨ignored, if_neg (mt guard.1 ignored)⟩

theorem writeAckWait_spec (v : Word) (s : State) :
    (writeIgnored (.reg .ackWait) v s ∧ writeAckWait v s = ignoreWrite s)
    ∨ (¬ writeIgnored (.reg .ackWait) v s
        ∧ writeAckWait v s = { s with cfg := { s.cfg with ackWait := v.extractLsb' 0 16 } }) := by
  have guard : (s.busy ∨ v.extractLsb' 0 16 = 0#16) ↔ writeIgnored (.reg .ackWait) v s := by
    simp [writeIgnored, ← BitVec.toNat_inj]
  by_cases ignored : writeIgnored (.reg .ackWait) v s
  · exact .inl ⟨ignored, if_pos (guard.2 ignored)⟩
  · exact .inr ⟨ignored, if_neg (mt guard.1 ignored)⟩

theorem writeReg_of_ignored {r : Reg} {v : Word} {s : State} (ignored : writeIgnored (.reg r) v s) :
    writeReg r v s = ignoreWrite s := by
  cases r with
  | ctrl => exact ((writeCtrl_spec v s).resolve_right fun stored => stored.1 ignored).2
  | windowSize => exact ((writeWindowSize_spec v s).resolve_right fun stored => stored.1 ignored).2
  | ackWait => exact ((writeAckWait_spec v s).resolve_right fun stored => stored.1 ignored).2
  | giveup | cbufLen => exact if_pos ignored
  | _ => exact ignored.elim

theorem hostWrite_of_reg {a : BitVec 12} {r : Reg} (h : target a = .reg r) (other : r ≠ .cmd) (v : Word)
    (s : State) : hostWrite a v s = .next (writeReg r v s) := by
  simp only [hostWrite, h]

/-- An ignored write raises WR_IGNORED and changes nothing else. -/
theorem hostWrite_of_ignored {a : BitVec 12} {v : Word} {s : State} (ignored : writeIgnored (target a) v s) :
    hostWrite a v s = .next (ignoreWrite s) := by
  cases selected : target a with
  | reg r =>
    rw [selected] at ignored
    have other : r ≠ .cmd := fun cmd => by subst cmd; exact ignored
    rw [hostWrite_of_reg selected other, writeReg_of_ignored ignored]
  | txbuf k | cbuf k =>
    rw [selected] at ignored
    have busy : s.busy = true := ignored
    simp only [hostWrite, selected, writeBuffer, if_pos busy]
  | reserved =>
    rw [selected] at ignored
    exact ignored.elim

/-! ### What keeps WR_IGNORED -/

/-- `IRQ_PENDING.WR_IGNORED` (10_state R169). -/
def State.wrIgnored (s : State) : Bool := s.irq.pending.getLsbD 4

theorem wrIgnored_congr {s t : State} (h : t.irq = s.irq) : t.wrIgnored = s.wrIgnored := by
  rw [State.wrIgnored, h, State.wrIgnored]

/-- Raising pending bits sets WR_IGNORED only by bit 4 of what is raised. -/
@[simp] theorem wrIgnored_setPending (b : BitVec 5) (s : State) :
    (setPending b s).wrIgnored = (s.wrIgnored || b.getLsbD 4) :=
  BitVec.getLsbD_or

@[simp] theorem wrIgnored_complete (c : ErrCode) (s : State) : (complete c s).wrIgnored = s.wrIgnored := by
  have otherBits : (if c = errOk then doneBit else doneBit ||| errBit).getLsbD 4 = false := by
    split <;> decide
  rw [complete, wrIgnored_setPending, otherBits, Bool.or_false]
  rfl

@[simp] theorem wrIgnored_overrun (s : State) : (overrun s).wrIgnored = s.wrIgnored :=
  (wrIgnored_setPending _ _).trans (Bool.or_false _)

@[simp] theorem wrIgnored_loopTest (s : State) : (loopTest s).wrIgnored = s.wrIgnored := by
  rcases loopTest_spec s with ⟨-, waits⟩ | ⟨-, -, ends⟩ | ⟨-, -, pushes⟩
  · rw [waits]
    rfl
  · rw [ends, wrIgnored_complete]
  · rw [pushes]
    rfl

@[simp] theorem wrIgnored_firstPush (s : State) : (firstPush s).wrIgnored = s.wrIgnored := by
  rcases firstPush_spec s with ⟨-, -, pushes⟩ | ⟨-, tests⟩
  · rw [pushes]
    rfl
  · rw [tests, wrIgnored_loopTest]

@[simp] theorem wrIgnored_acceptSend (flag : PacketFlag) (len : BitVec 10) (s : State) :
    (acceptSend flag len s).wrIgnored = s.wrIgnored :=
  wrIgnored_firstPush (loadSend flag len s)

@[simp] theorem wrIgnored_acceptSendall (s : State) : (acceptSendall s).wrIgnored = s.wrIgnored := by
  unfold acceptSendall
  rcases startRound_spec .finish { s with err := errOk } with ⟨-, emits⟩ | ⟨-, ends⟩
  · rw [emits]
    rfl
  · rw [ends, continueAfterTx_of_finish _ rfl, wrIgnored_complete]
    rfl

/-! ### The write of a command word -/

/-- Every word written to `CMD` is issued: refused by a check, or accepted by an operation that keeps WR_IGNORED. -/
theorem writeCmd_eq_issue (w : Word) (s : State) :
    ∃ refusal accept, writeCmd w s = .next (issue refusal accept s)
      ∧ ∀ t : State, (accept t).wrIgnored = t.wrIgnored := by
  unfold writeCmd
  cases decodeWord w with
  | rejected why => exact ⟨_, id, rfl, fun _ => rfl⟩
  | command i =>
    cases i with
    | encode flag len seq =>
      simp only [exec, execEncode]
      cases PacketFlag.ofField? flag with
      | none => exact ⟨_, id, rfl, fun _ => rfl⟩
      | some f => exact ⟨_, acceptEncode f len seq, rfl, fun _ => rfl⟩
    | decode => exact ⟨_, acceptDecode, rfl, fun _ => rfl⟩
    | sendFirst len => exact ⟨_, acceptSend .first len, rfl, wrIgnored_acceptSend .first len⟩
    | sendMiddle len => exact ⟨_, acceptSend .middle len, rfl, wrIgnored_acceptSend .middle len⟩
    | sendLast len => exact ⟨_, acceptSend .last len, rfl, wrIgnored_acceptSend .last len⟩
    | sendall => exact ⟨_, acceptSendall, rfl, wrIgnored_acceptSendall⟩

theorem wrIgnored_issue {accept : State → State} (keeps : ∀ t : State, (accept t).wrIgnored = t.wrIgnored)
    (refusal : Option ErrCode) (s : State) : (issue refusal accept s).wrIgnored = s.wrIgnored := by
  unfold issue
  split
  · exact wrIgnored_overrun s
  · split
    · exact wrIgnored_complete _ s
    · exact keeps s

theorem hostWrite_of_cmd {a : BitVec 12} (h : target a = .reg .cmd) (w : Word) (s : State) :
    hostWrite a w s = writeCmd w s := by
  simp only [hostWrite, h]

theorem writeCmd_of_busy (w : Word) {s : State} (busy : s.busy = true) :
    writeCmd w s = .next (overrun s) := by
  obtain ⟨refusal, accept, issued, -⟩ := writeCmd_eq_issue w s
  rw [issued, issue_of_busy refusal accept s ((busy_eq_true_iff s).1 busy)]

/-- Settles O12: every word is issued, and issuing while busy is an overrun. -/
theorem busyCommandWriteIsOverrun : Obligations.BusyCommandWriteIsOverrun := by
  intro s h a w rest facing writes selected busy
  refine answersWrite_of_hostWrite facing writes ?_
  rw [hostWrite_of_cmd selected]
  exact writeCmd_of_busy w busy

/-! ### The writes that are not ignored -/

theorem wrIgnored_of_writeIrqPending {v : Word} {s : State} (set : (writeIrqPending v s).wrIgnored = true) :
    s.wrIgnored = true := by
  have bits : (s.irq.pending.getLsbD 4 && (~~~(v.extractLsb' 0 5)).getLsbD 4) = true :=
    BitVec.getLsbD_and.symm.trans set
  exact (Bool.and_eq_true_iff.1 bits).1

theorem irq_writeReg_of_stored {r : Reg} {v : Word} {s : State} (stored : ¬ writeIgnored (.reg r) v s)
    (notEnable : r ≠ .irqEnable) (notPending : r ≠ .irqPending) : (writeReg r v s).irq = s.irq := by
  cases r with
  | ctrl =>
    obtain ⟨-, p, -, written⟩ := (writeCtrl_spec v s).resolve_left fun ignored => stored ignored.1
    rw [writeReg, written]
  | windowSize =>
    rw [writeReg, ((writeWindowSize_spec v s).resolve_left fun ignored => stored ignored.1).2]
  | ackWait => rw [writeReg, ((writeAckWait_spec v s).resolve_left fun ignored => stored ignored.1).2]
  | giveup | cbufLen =>
    have idle : ¬ s.busy = true := stored
    simp only [writeReg, writeGiveup, writeCbufLen, if_neg idle]
  | irqEnable => exact absurd rfl notEnable
  | irqPending => exact absurd rfl notPending
  | _ => rfl

/-- A stored write leaves WR_IGNORED, but for one to `IRQ_PENDING`, which can clear it. -/
theorem wrIgnored_of_writeReg {r : Reg} {v : Word} {s : State} (stored : ¬ writeIgnored (.reg r) v s)
    (set : (writeReg r v s).wrIgnored = true) : s.wrIgnored = true := by
  by_cases enable : r = .irqEnable
  · subst enable
    exact set
  · by_cases pending : r = .irqPending
    · subst pending
      exact wrIgnored_of_writeIrqPending set
    · exact (wrIgnored_congr (irq_writeReg_of_stored stored enable pending)).symm.trans set

/-- A write that is not ignored is answered, with WR_IGNORED set only if it was set before. -/
theorem hostWrite_of_not_ignored {a : BitVec 12} {v : Word} {s : State} (stored : ¬ writeIgnored (target a) v s) :
    ∃ t, hostWrite a v s = .next t ∧ (t.wrIgnored = true → s.wrIgnored = true) := by
  cases selected : target a with
  | reg r =>
    rw [selected] at stored
    by_cases cmd : r = .cmd
    · subst cmd
      obtain ⟨refusal, accept, issued, keeps⟩ := writeCmd_eq_issue v s
      exact ⟨_, (hostWrite_of_cmd selected v s).trans issued, (wrIgnored_issue keeps refusal s).symm.trans⟩
    · exact ⟨_, hostWrite_of_reg selected cmd v s, wrIgnored_of_writeReg stored⟩
  | txbuf k | cbuf k =>
    rw [selected] at stored
    have idle : ¬ s.busy = true := stored
    simp only [hostWrite, selected, writeBuffer, if_neg idle]
    exact ⟨_, rfl, id⟩
  | reserved => exact ⟨s, hostWrite_of_reserved selected v s, id⟩

/-- Both strobes leave the interrupt registers to the write. -/
theorem next_of_answersWrite {h : HostAccess} {r : Result} {t : State} (answers : answersWrite h r t) :
    ∃ u, r = .next u ∧ u.irq = t.irq := by
  cases h with
  | read a => exact ⟨t, answers, rfl⟩
  | write a v => exact ⟨t, answers, rfl⟩
  | readWrite a v =>
    obtain ⟨x, n, next⟩ := answers
    exact ⟨_, next, rfl⟩

/-- Settles O43: an ignored write by what it selects; for any other, WR_IGNORED is set after it only if before. -/
theorem ignoredWritesOnlySetTheFlag : Obligations.IgnoredWritesOnlySetTheFlag := by
  intro s h a v rest facing writes
  refine ⟨fun ignored => answersWrite_of_hostWrite facing writes (hostWrite_of_ignored ignored), fun stored => ?_⟩
  obtain ⟨t, written, kept⟩ := hostWrite_of_not_ignored (s := s.popped rest) stored
  obtain ⟨u, next, sameIrq⟩ := next_of_answersWrite (answersWrite_of_hostWrite facing writes written)
  exact ⟨u, next, fun set => kept ((wrIgnored_congr sameIrq).symm.trans set)⟩

end Sys2Proof.Machine
end

section
/-!
The `irq` level (60_exceptions R820), and the acceptance checks of R802 on the write of a command word: the opcode
map in the numbers of the fields, `ERR` of a command once accepted, and the check each opcode's words fail first.
-/
namespace Sys2Proof.Machine

/-! ### The `irq` level -/

/-- Settles O46: a word of five bits is not 0 exactly when one of them is 1. -/
theorem irqIsTheOrOfEnabledPending : Obligations.IrqIsTheOrOfEnabledPending := by
  intro s
  have low : s.irqLine = false ↔ ∀ i, i < 5 → (s.irq.pending &&& s.irq.enable).getLsbD i = false := by
    rw [State.irqLine, decide_eq_false_iff_not, not_not, BitVec.eq_of_getLsbD_eq_iff]
    simp only [BitVec.getLsbD_zero]
  rw [← Bool.not_eq_false, low]
  simp only [BitVec.getLsbD_and, not_forall, Bool.not_eq_false, Bool.and_eq_true, exists_prop]

/-! ### The decoder, opcode by opcode -/

theorem opField_eq_iff (w : Word) (op : BitVec 4) : opField w = op ↔ w.toNat % 16 = op.toNat := by
  rw [opField, ← BitVec.toNat_inj, BitVec.extractLsb'_toNat, Nat.shiftRight_zero]

theorem flagField_toNat (w : Word) : (flagField w).toNat = w.toNat / 16 % 4 := by
  rw [flagField, BitVec.extractLsb'_toNat, Nat.shiftRight_eq_div_pow]

theorem lenField_toNat (w : Word) : (lenField w).toNat = w.toNat / 64 % 1024 := by
  rw [lenField, BitVec.extractLsb'_toNat, Nat.shiftRight_eq_div_pow]

theorem seqField_eq_zero_iff (w : Word) : seqField w = 0#16 ↔ w.toNat / 65536 = 0 := by
  rw [seqField, ← BitVec.toNat_inj, BitVec.extractLsb'_toNat, Nat.shiftRight_eq_div_pow, BitVec.toNat_ofNat]
  have := w.isLt
  omega

/-- The fields a bare row does not use are the bits above `OP` (30_encoding R304). -/
theorem unusedByBare_eq_zero_iff (w : Word) : w.extractLsb' 4 28 = 0#28 ↔ w.toNat / 16 = 0 := by
  rw [← BitVec.toNat_inj, BitVec.extractLsb'_toNat, Nat.shiftRight_eq_div_pow, BitVec.toNat_ofNat]
  have := w.isLt
  omega

theorem decodeBare_spec (w : Word) (i : Instr) :
    (w.toNat / 16 = 0 ∧ decodeBare w i = .command i)
    ∨ (w.toNat / 16 ≠ 0 ∧ decodeBare w i = .rejected .reserved) := by
  by_cases clear : w.toNat / 16 = 0
  · exact .inl ⟨clear, if_pos ((unusedByBare_eq_zero_iff w).2 clear)⟩
  · exact .inr ⟨clear, if_neg (mt (unusedByBare_eq_zero_iff w).1 clear)⟩

/-- The SEND of each packet flag (30_encoding R303). -/
def sendInstr (flag : PacketFlag) (len : BitVec 10) : Instr :=
  match flag with
  | .first => .sendFirst len
  | .middle => .sendMiddle len
  | .last => .sendLast len

theorem exec_sendInstr (flag : PacketFlag) (len : BitVec 10) (s : State) :
    exec (sendInstr flag len) s = .next (issue (sendCheck len s) (acceptSend flag len) s) := by
  cases flag <;> rfl

theorem decodeSend_spec (w : Word) :
    (w.toNat / 65536 ≠ 0 ∧ decodeSend w = .rejected .reserved)
    ∨ (w.toNat / 65536 = 0 ∧ w.toNat / 16 % 4 = 3 ∧ decodeSend w = .rejected .flag)
    ∨ (w.toNat / 65536 = 0 ∧ w.toNat / 16 % 4 ≠ 3
        ∧ ∃ flag, decodeSend w = .command (sendInstr flag (lenField w))) := by
  by_cases clear : w.toNat / 65536 = 0
  · refine .inr ?_
    rw [decodeSend, if_pos ((seqField_eq_zero_iff w).2 clear), ← flagField_toNat]
    generalize flagField w = flag
    have flags : flag = 0#2 ∨ flag = 1#2 ∨ flag = 2#2 ∨ flag = 3#2 := by
      revert flag
      decide
    rcases flags with rfl | rfl | rfl | rfl
    · exact .inr ⟨clear, by decide, .first, rfl⟩
    · exact .inr ⟨clear, by decide, .middle, rfl⟩
    · exact .inr ⟨clear, by decide, .last, rfl⟩
    · exact .inl ⟨clear, rfl, rfl⟩
  · exact .inl ⟨clear, if_neg (mt (seqField_eq_zero_iff w).1 clear)⟩

theorem decodeWord_of_op_one {w : Word} (op : w.toNat % 16 = 1) :
    decodeWord w = .command (.encode (flagField w) (lenField w) (seqField w)) := by
  simp [decodeWord, opField_eq_iff, op]

theorem decodeWord_of_op_two {w : Word} (op : w.toNat % 16 = 2) : decodeWord w = decodeBare w .decode := by
  simp [decodeWord, opField_eq_iff, op]

theorem decodeWord_of_op_three {w : Word} (op : w.toNat % 16 = 3) : decodeWord w = decodeSend w := by
  simp [decodeWord, opField_eq_iff, op]

theorem decodeWord_of_op_four {w : Word} (op : w.toNat % 16 = 4) : decodeWord w = decodeBare w .sendall := by
  simp [decodeWord, opField_eq_iff, op]

theorem decodeWord_of_op_illegal {w : Word}
    (op : ¬ (w.toNat % 16 = 1 ∨ w.toNat % 16 = 2 ∨ w.toNat % 16 = 3 ∨ w.toNat % 16 = 4)) :
    decodeWord w = .rejected .opcode := by
  simp only [not_or] at op
  simp [decodeWord, opField_eq_iff, op]

/-! ### The checks on operands and state, as numbers of R802 -/

/-- The refusal that check `n` of R802 is the first to fail stands for; 0 is no check. -/
def refusalOf (n : Nat) : Option ErrCode := if n = 0 then none else some (BitVec.ofNat 4 n)

@[simp] theorem refusalOf_zero : refusalOf 0 = none := rfl

theorem refusalOf_of_ne_zero {n : Nat} (h : n ≠ 0) : refusalOf n = some (BitVec.ofNat 4 n) := if_neg h

theorem lengthCheck_eq_refusalOf (len : BitVec 10) :
    lengthCheck len = refusalOf (if 996 < len.toNat then 4 else 0) := by
  rw [apply_ite refusalOf]
  rfl

theorem failedCheck_eq_refusalOf (s : State) :
    failedCheck s = refusalOf (if s.sess.failed = true then 6 else 0) := by
  rw [apply_ite refusalOf]
  rfl

theorem malformedCheck_eq_refusalOf (s : State) :
    malformedCheck s
      = refusalOf (if s.codec.cbufLen.toNat < 4 ∨ 1000 < s.codec.cbufLen.toNat then 5 else 0) := by
  rw [apply_ite refusalOf]
  rfl

theorem sendCheck_eq_refusalOf (len : BitVec 10) (s : State) :
    sendCheck len s
      = refusalOf (if 996 < len.toNat then 4 else if s.sess.failed = true then 6 else 0) := by
  rw [sendCheck, lengthCheck_eq_refusalOf]
  by_cases long : 996 < len.toNat
  · rw [if_pos long, if_pos long]
    rfl
  · rw [if_neg long, if_neg long]
    exact failedCheck_eq_refusalOf s

/-! ### `ERR` of an accepted command -/

theorem loopTest_err {s : State} (ok : s.err = errOk) : (loopTest s).err = errOk := by
  rcases loopTest_spec s with ⟨-, waits⟩ | ⟨-, -, ends⟩ | ⟨-, -, pushes⟩
  · rwa [waits, startAttempt_err]
  · rw [ends, complete_err]
  · rwa [pushes, push_err]

theorem acceptSend_err (flag : PacketFlag) (len : BitVec 10) (s : State) :
    (acceptSend flag len s).err = errOk := by
  rw [acceptSend]
  rcases firstPush_spec (loadSend flag len s) with ⟨-, -, pushes⟩ | ⟨-, tests⟩
  · rw [pushes, push_err, loadSend_err]
  · rw [tests, loopTest_err (loadSend_err flag len s)]

theorem acceptSendall_err (s : State) : (acceptSendall s).err = errOk := by
  rw [acceptSendall]
  rcases startRound_spec .finish { s with err := errOk } with ⟨-, emits⟩ | ⟨-, ends⟩
  · rw [emits]
    rfl
  · rw [ends, continueAfterTx_of_finish _ rfl, complete_err]

/-! ### The write of a command word, check by check -/

/-- A write of `w` to `CMD` is issued with check `n` of R802 as its refusal; with `n` = 0 the word spells a command,
whose acceptance leaves `ERR` = 0. -/
def IssuedUnder (n : Nat) (w : Word) (s : State) : Prop :=
  ∃ accept, writeCmd w s = .next (issue (refusalOf n) accept s)
    ∧ (n = 0 → (∃ i, decodeWord w = .command i) ∧ ∀ t : State, (accept t).err = errOk)

theorem writeCmd_of_command {w : Word} {i : Instr} (spells : decodeWord w = .command i) (s : State) :
    writeCmd w s = exec i s := by
  rw [writeCmd, spells]

theorem writeCmd_of_rejected {w : Word} {why : DecodeError} (rejected : decodeWord w = .rejected why) (s : State) :
    writeCmd w s = .next (issue (some (rejectCode why)) id s) := by
  rw [writeCmd, rejected]

theorem issuedUnder_of_command {n : Nat} {w : Word} {s : State} {i : Instr} {accept : State → State}
    (spells : decodeWord w = .command i) (runs : exec i s = .next (issue (refusalOf n) accept s))
    (ok : ∀ t, (accept t).err = errOk) : IssuedUnder n w s :=
  ⟨accept, (writeCmd_of_command spells s).trans runs, fun _ => ⟨⟨i, spells⟩, ok⟩⟩

/-- A word the decoder rejects is issued under its own check: 1, 2 or 3. -/
theorem issuedUnder_of_rejected {n : Nat} {w : Word} {why : DecodeError} (rejected : decodeWord w = .rejected why)
    (s : State) (failing : n ≠ 0) (code : rejectCode why = BitVec.ofNat 4 n) : IssuedUnder n w s :=
  ⟨id, by rw [writeCmd_of_rejected rejected, code, refusalOf_of_ne_zero failing],
    fun passing => absurd passing failing⟩

/-- ENCODE: checks 3 and 4. -/
theorem issuedUnder_of_op_one {w : Word} (op : w.toNat % 16 = 1) (s : State) :
    IssuedUnder (firstFailingCheck w s) w s := by
  have spells := decodeWord_of_op_one op
  have checks : firstFailingCheck w s
      = if w.toNat / 16 % 4 = 3 then 3 else if 996 < (lenField w).toNat then 4 else 0 := by
    simp [firstFailingCheck, op, lenField_toNat]
  have illegal : PacketFlag.ofField? (flagField w) = none ↔ w.toNat / 16 % 4 = 3 := by
    have codes : ∀ f : BitVec 2, PacketFlag.ofField? f = none ↔ f.toNat = 3 := by decide
    rw [codes, flagField_toNat]
  rw [checks]
  cases field : PacketFlag.ofField? (flagField w) with
  | none =>
    rw [if_pos (illegal.1 field)]
    refine ⟨id, ?_, fun passing => absurd passing (by decide)⟩
    simp only [writeCmd_of_command spells, exec, execEncode, field]
    rfl
  | some flag =>
    rw [if_neg (by simp [← illegal, field])]
    refine issuedUnder_of_command spells ?_ (acceptEncode_err flag (lenField w) (seqField w))
    simp only [exec, execEncode, field, lengthCheck_eq_refusalOf]

/-- DECODE: checks 2 and 5. -/
theorem issuedUnder_of_op_two {w : Word} (op : w.toNat % 16 = 2) (s : State) :
    IssuedUnder (firstFailingCheck w s) w s := by
  have checks : firstFailingCheck w s = if w.toNat / 16 ≠ 0 then 2
      else if s.codec.cbufLen.toNat < 4 ∨ 1000 < s.codec.cbufLen.toNat then 5 else 0 := by
    simp [firstFailingCheck, op]
  rw [checks]
  rcases decodeBare_spec w .decode with ⟨clear, spells⟩ | ⟨used, rejected⟩
  · rw [if_neg (not_not.2 clear)]
    refine issuedUnder_of_command ((decodeWord_of_op_two op).trans spells) ?_ acceptDecode_err
    rw [← malformedCheck_eq_refusalOf]
    rfl
  · rw [if_pos used]
    exact issuedUnder_of_rejected ((decodeWord_of_op_two op).trans rejected) s (by decide) rfl

/-- SEND: checks 2, 3, 4 and 6. -/
theorem issuedUnder_of_op_three {w : Word} (op : w.toNat % 16 = 3) (s : State) :
    IssuedUnder (firstFailingCheck w s) w s := by
  have checks : firstFailingCheck w s = if w.toNat / 65536 ≠ 0 then 2 else if w.toNat / 16 % 4 = 3 then 3
      else if 996 < (lenField w).toNat then 4 else if s.sess.failed = true then 6 else 0 := by
    simp [firstFailingCheck, op, lenField_toNat]
  rw [checks]
  have decoded := decodeWord_of_op_three op
  rcases decodeSend_spec w with ⟨used, rejected⟩ | ⟨clear, noFlag, rejected⟩ | ⟨clear, isFlag, flag, spells⟩
  · rw [if_pos used]
    exact issuedUnder_of_rejected (decoded.trans rejected) s (by decide) rfl
  · rw [if_neg (not_not.2 clear), if_pos noFlag]
    exact issuedUnder_of_rejected (decoded.trans rejected) s (by decide) rfl
  · rw [if_neg (not_not.2 clear), if_neg isFlag]
    refine issuedUnder_of_command (decoded.trans spells) ?_ (acceptSend_err flag (lenField w))
    rw [exec_sendInstr, sendCheck_eq_refusalOf]

/-- SENDALL: checks 2 and 6. -/
theorem issuedUnder_of_op_four {w : Word} (op : w.toNat % 16 = 4) (s : State) :
    IssuedUnder (firstFailingCheck w s) w s := by
  have checks : firstFailingCheck w s
      = if w.toNat / 16 ≠ 0 then 2 else if s.sess.failed = true then 6 else 0 := by
    simp [firstFailingCheck, op]
  rw [checks]
  rcases decodeBare_spec w .sendall with ⟨clear, spells⟩ | ⟨used, rejected⟩
  · rw [if_neg (not_not.2 clear)]
    refine issuedUnder_of_command ((decodeWord_of_op_four op).trans spells) ?_ acceptSendall_err
    rw [← failedCheck_eq_refusalOf]
    rfl
  · rw [if_pos used]
    exact issuedUnder_of_rejected ((decodeWord_of_op_four op).trans rejected) s (by decide) rfl

/-- Every word is issued under the first check it fails (R802). -/
theorem issuedUnder_firstFailingCheck (w : Word) (s : State) : IssuedUnder (firstFailingCheck w s) w s := by
  by_cases op : w.toNat % 16 = 1 ∨ w.toNat % 16 = 2 ∨ w.toNat % 16 = 3 ∨ w.toNat % 16 = 4
  · rcases op with encode | decode | send | sendall
    · exact issuedUnder_of_op_one encode s
    · exact issuedUnder_of_op_two decode s
    · exact issuedUnder_of_op_three send s
    · exact issuedUnder_of_op_four sendall s
  · have checks : firstFailingCheck w s = 1 := if_pos op
    rw [checks]
    exact issuedUnder_of_rejected (decodeWord_of_op_illegal op) s (by decide) rfl

theorem firstFailingCheck_le (w : Word) (s : State) : firstFailingCheck w s ≤ 6 := by
  unfold firstFailingCheck
  dsimp only
  split_ifs <;> decide

/-- No check has the code of success. -/
theorem ofNat_firstFailingCheck_ne_errOk {w : Word} {s : State} (failing : firstFailingCheck w s ≠ 0) :
    BitVec.ofNat 4 (firstFailingCheck w s) ≠ errOk := by
  have bound := firstFailingCheck_le w s
  simp only [errOk, ne_eq, ← BitVec.toNat_inj, BitVec.toNat_ofNat]
  omega

/-- Settles O13: in an idle block issuing under a check completes with its code, and issuing under none accepts. -/
theorem acceptanceChecksInOrder : Obligations.AcceptanceChecksInOrder := by
  intro s h a w rest facing writes selected notBusy
  have idle : (s.popped rest).st = .idle := (busy_eq_false_iff s).1 notBusy
  obtain ⟨accept, written, accepted⟩ : IssuedUnder (firstFailingCheck w s) w (s.popped rest) :=
    issuedUnder_firstFailingCheck w (s.popped rest)
  refine ⟨fun failing => answersWrite_of_hostWrite facing writes ?_, fun passing => ?_⟩
  · rw [hostWrite_of_cmd selected, written, refusalOf_of_ne_zero failing, issue_refused _ _ _ idle,
      complete_of_error (ofNat_firstFailingCheck_ne_errOk failing)]
  · obtain ⟨⟨i, spells⟩, ok⟩ := accepted passing
    rw [passing, refusalOf_zero, issue_accepted _ _ idle] at written
    exact ⟨i, accept (s.popped rest), spells, (writeCmd_of_command spells _).symm.trans written,
      answersWrite_of_hostWrite facing writes ((hostWrite_of_cmd selected w _).trans written), ok _⟩

end Sys2Proof.Machine
end

section
/-!
The encoding of 30_encoding: the fields of a packed word and the packing of a word's fields undo each other; from that
the two directions of decoding, and the masks of R304.
-/
namespace Sys2Proof
open Sys2Proof.Machine

/-! ### The fields of a packed word (R301, R302) -/

@[simp] theorem opField_packWord (seq : Seq) (len : BitVec 10) (flag : BitVec 2) (op : BitVec 4) :
    opField (packWord seq len flag op) = op := by
  apply BitVec.eq_of_getLsbD_eq
  intro i hi
  rw [opField, BitVec.getLsbD_extractLsb', Laws.getLsbD_packWord]
  simp [hi]

@[simp] theorem flagField_packWord (seq : Seq) (len : BitVec 10) (flag : BitVec 2) (op : BitVec 4) :
    flagField (packWord seq len flag op) = flag := by
  apply BitVec.eq_of_getLsbD_eq
  intro i hi
  rw [flagField, BitVec.getLsbD_extractLsb', Laws.getLsbD_packWord]
  simp [hi]

@[simp] theorem lenField_packWord (seq : Seq) (len : BitVec 10) (flag : BitVec 2) (op : BitVec 4) :
    lenField (packWord seq len flag op) = len := by
  apply BitVec.eq_of_getLsbD_eq
  intro i hi
  rw [lenField, BitVec.getLsbD_extractLsb', Laws.getLsbD_packWord, if_neg (by omega), if_neg (by omega),
    if_pos (by omega), show 6 + i - 4 - 2 = i by omega, decide_eq_true hi, Bool.true_and]

@[simp] theorem seqField_packWord (seq : Seq) (len : BitVec 10) (flag : BitVec 2) (op : BitVec 4) :
    seqField (packWord seq len flag op) = seq := by
  apply BitVec.eq_of_getLsbD_eq
  intro i hi
  rw [seqField, BitVec.getLsbD_extractLsb', Laws.getLsbD_packWord, if_neg (by omega), if_neg (by omega),
    if_neg (by omega), show 16 + i - 4 - 2 - 10 = i by omega, decide_eq_true hi, Bool.true_and]

/-- The four fields cover the word. -/
theorem packWord_fields (w : Word) : packWord (seqField w) (lenField w) (flagField w) (opField w) = w := by
  apply BitVec.eq_of_getLsbD_eq
  intro i hi
  rw [Laws.getLsbD_packWord]
  simp only [opField, flagField, lenField, seqField, BitVec.getLsbD_extractLsb']
  split_ifs with op flag len
  · simp [op]
  · simp [flag, show 4 + (i - 4) = i by omega]
  · simp [len, show 6 + (i - 4 - 2) = i by omega]
  · simp [show i - 4 - 2 - 10 < 16 by omega, show 16 + (i - 4 - 2 - 10) = i by omega]

/-! ### Decoding and encoding -/

/-- Settles O1: the fields of the packed word are those of the command; a bare row's word is one fixed word. -/
theorem decodeOfEncodeIsTheCommand : Obligations.DecodeOfEncodeIsTheCommand := by
  intro i
  cases i with
  | decode => decide
  | sendall => decide
  | _ => simp [encodeWord, decodeWord, decodeSend]

/-- A word whose bits above `OP` are 0 is the bare word of its opcode. -/
theorem packWord_bare {w : Word} (clear : w.extractLsb' 4 28 = 0#28) : packWord 0#16 0#10 0#2 (opField w) = w := by
  have low : w.toNat / 16 = 0 := (unusedByBare_eq_zero_iff w).1 clear
  have flag : flagField w = 0#2 := by rw [← BitVec.toNat_inj, flagField_toNat, low]; rfl
  have len : lenField w = 0#10 := by
    rw [← BitVec.toNat_inj, lenField_toNat, show w.toNat / 64 = 0 by omega]
    rfl
  have seq : seqField w = 0#16 := (seqField_eq_zero_iff w).2 (by omega)
  calc packWord 0#16 0#10 0#2 (opField w)
      = packWord (seqField w) (lenField w) (flagField w) (opField w) := by rw [flag, len, seq]
    _ = w := packWord_fields w

theorem encodeWord_of_decodeBare {w : Word} {i j : Instr} (spells : decodeBare w i = .command j)
    (bare : encodeWord i = packWord 0#16 0#10 0#2 (opField w)) : encodeWord j = w := by
  unfold decodeBare at spells
  split at spells
  · rename_i clear
    cases spells
    exact bare.trans (packWord_bare clear)
  · cases spells

theorem encodeWord_of_decodeSend {w : Word} {i : Instr} (op : opField w = 3#4) (spells : decodeSend w = .command i) :
    encodeWord i = w := by
  unfold decodeSend at spells
  split at spells
  · rename_i seq
    have packed := packWord_fields w
    rw [op, seq] at packed
    split at spells
    · rename_i flag
      cases spells
      rwa [flag] at packed
    · split at spells
      · rename_i flag
        cases spells
        rwa [flag] at packed
      · split at spells
        · rename_i flag
          cases spells
          rwa [flag] at packed
        · cases spells
  · cases spells

/-- Settles O2: the rows of the opcode map one by one; each spells only words packed from its own fields. -/
theorem encodeOfDecodeIsTheWord : Obligations.EncodeOfDecodeIsTheWord := by
  intro w i spells
  unfold decodeWord at spells
  split at spells
  · rename_i op
    cases spells
    rw [encodeWord, ← op, packWord_fields]
  · split at spells
    · rename_i op
      exact encodeWord_of_decodeBare spells (by rw [op]; rfl)
    · split at spells
      · rename_i op
        exact encodeWord_of_decodeSend op spells
      · split at spells
        · rename_i op
          exact encodeWord_of_decodeBare spells (by rw [op]; rfl)
        · cases spells

/-! ### The masks of R304 -/

/-- The word of every command carries the fixed bits of its row. -/
theorem encodeWord_and_rowMask (i : Instr) : encodeWord i &&& rowMask i = rowMatch i := by
  cases i with
  | encode flag len seq => exact Laws.RowMatch.encode flag len seq
  | decode => exact Laws.RowMatch.decode
  | sendFirst len => exact Laws.RowMatch.sendFirst len
  | sendMiddle len => exact Laws.RowMatch.sendMiddle len
  | sendLast len => exact Laws.RowMatch.sendLast len
  | sendall => exact Laws.RowMatch.sendall

/-- The fields of a masked word, each masked by the mask's own field. -/
theorem fields_of_masked {w m v : Word} (h : w &&& m = v) :
    opField w &&& opField m = opField v ∧ flagField w &&& flagField m = flagField v
      ∧ seqField w &&& seqField m = seqField v := by
  subst h
  simp only [opField, flagField, seqField, BitVec.extractLsb'_and, and_self]

/-- A word whose SEND row is fixed by the mask is packed from its length alone. -/
theorem packWord_of_sendMask {w : Word} {f : BitVec 2}
    (h : w &&& 0xFFFF003F#32 = packWord 0#16 0#10 f 3#4) : packWord 0#16 (lenField w) f 3#4 = w := by
  obtain ⟨op, flag, seq⟩ := fields_of_masked h
  have opMask : opField 0xFFFF003F#32 = BitVec.allOnes 4 := by decide
  have flagMask : flagField 0xFFFF003F#32 = BitVec.allOnes 2 := by decide
  have seqMask : seqField 0xFFFF003F#32 = BitVec.allOnes 16 := by decide
  rw [opMask, BitVec.and_allOnes, opField_packWord] at op
  rw [flagMask, BitVec.and_allOnes, flagField_packWord] at flag
  rw [seqMask, BitVec.and_allOnes, seqField_packWord] at seq
  calc packWord 0#16 (lenField w) f 3#4
      = packWord (seqField w) (lenField w) (flagField w) (opField w) := by rw [op, flag, seq]
    _ = w := packWord_fields w

/-- A word that matches a row is the word of a command of that row. -/
theorem exists_encodeWord_of_rowMask {w : Word} {i : Instr} (h : w &&& rowMask i = rowMatch i) :
    ∃ j, encodeWord j = w ∧ rowMatch j = rowMatch i := by
  cases i with
  | encode flag len seq =>
    have op := (fields_of_masked h).1
    have opMask : opField 0x0000000F#32 = BitVec.allOnes 4 := by decide
    have opMatch : opField 0x00000001#32 = 1#4 := by decide
    rw [rowMask, rowMatch, opMask, BitVec.and_allOnes, opMatch] at op
    refine ⟨.encode (flagField w) (lenField w) (seqField w), ?_, rfl⟩
    rw [encodeWord, ← op, packWord_fields]
  | decode | sendall =>
    refine ⟨_, ?_, rfl⟩
    rw [rowMask, show (0xFFFFFFFF#32 : Word) = BitVec.allOnes 32 by decide, BitVec.and_allOnes] at h
    rw [h]
    decide
  | sendFirst len => exact ⟨.sendFirst (lenField w),
      packWord_of_sendMask (h.trans (show 0x00000003#32 = _ by decide)), rfl⟩
  | sendMiddle len => exact ⟨.sendMiddle (lenField w),
      packWord_of_sendMask (h.trans (show 0x00000013#32 = _ by decide)), rfl⟩
  | sendLast len => exact ⟨.sendLast (lenField w),
      packWord_of_sendMask (h.trans (show 0x00000023#32 = _ by decide)), rfl⟩

/-- Settles O3: a word that decodes is its command's word, which carries the row's bits; a word that carries them is
a command's word, which decodes. -/
theorem wordsSpellCommandsByMask : Obligations.WordsSpellCommandsByMask := by
  refine fun w => ⟨fun i spells => ?_, fun i matched => ?_⟩
  · rw [← encodeOfDecodeIsTheWord w i spells]
    exact encodeWord_and_rowMask i
  · obtain ⟨j, rfl, row⟩ := exists_encodeWord_of_rowMask matched
    exact ⟨j, decodeOfEncodeIsTheCommand j, row⟩

/-- Settles O4: six closed words. -/
theorem sampleWordsDecode : Obligations.SampleWordsDecode := by
  unfold Obligations.SampleWordsDecode
  decide

end Sys2Proof
end

section
/-!
The invariant, state by state of the sequencer. Its conditions are regrouped by the registers they read, each group as
a predicate of those registers alone, so that an update of any other register leaves it as it is.
-/
namespace Sys2Proof.Machine

/-! ### The groups of conditions -/

/-- The legal values of the configuration registers (00_scope R9, 10_state R163, R164). -/
structure ConfigOk (g : ConfigRegs) : Prop where
  wmaxLow : 1 ≤ g.wmax.toNat
  wmaxHigh : g.wmax.toNat ≤ 32767
  windowLow : 1 ≤ g.windowSize.toNat
  windowHigh : g.windowSize.toNat ≤ g.wmax.toNat
  ackWaitLow : 1 ≤ g.ackWait.toNat

/-- What no step of the sequencer puts in doubt: legal codes, configuration, memory and datagrams. -/
def Steady (s : State) : Prop :=
  s.err.toNat ≤ 8 ∧ ConfigOk s.cfg ∧ Memory.wf s.mem = true ∧ ∀ f ∈ s.source.waiting, f ≠ []

/-- The session in every state of the sequencer, under a window of `w` (10_state R116, R130 to R133). -/
structure SessionOk (w : Nat) (q : Session) : Prop where
  order : ∀ (i : Nat) (f : Frame), q.fifo[i]? = some f →
    frameSeq f = q.nextSeq - BitVec.ofNat 16 q.fifo.length + BitVec.ofNat 16 i
  sound : ∀ f ∈ q.fifo, FrameSound f
  flightLow : -65534 ≤ q.inFlight.toInt
  flightHigh : q.inFlight.toInt ≤ w
  bound : q.fifo.length ≤ w + 1
  unlocked : q.cfgLocked = false → q.fifo = [] ∧ q.inFlight = 0#18

/-- `LastPushed`, of the session registers. -/
structure LastOut (q : Session) : Prop where
  isLast : q.curFlag = .last
  sent : q.lastSent = true
  atLeast : q.inFlight.toInt ≤ q.fifo.length
  atMost : (q.fifo.length : Int) ≤ max 0 q.inFlight.toInt + 1

/-- `NotPushed`, of the session registers. -/
structure Unsent (q : Session) : Prop where
  notSent : q.lastSent = false
  count : (q.fifo.length : Int) = max 0 q.inFlight.toInt
  pendingSound : FrameSound q.pending
  pendingSeq : frameSeq q.pending = q.nextSeq

/-- The session of a SEND that has not ended, in whatever state of the sequencer. -/
structure InSend (w : Nat) (q : Session) : Prop extends SessionOk w q where
  alive : q.failed = false
  locked : q.cfgLocked = true
  packet : LastOut q ∨ Unsent q

/-- A session outside a SEND has room in the window, unless it has failed. -/
def Rested (s : State) : Prop := s.sess.failed = false → s.fifoLen ≤ s.window

/-- Nothing is being emitted. -/
def TxClosed (s : State) : Prop := s.emission.queue = [] ∧ s.sink.part = []

/-- No inbound frame is being received. -/
def RxClosed (s : State) : Prop := s.rxr.active = false ∧ s.source.rest = []

/-- Both ports are closed and no codec command runs. -/
def Quiet (s : State) : Prop := TxClosed s ∧ RxClosed s ∧ s.codec.job = none

/-- An inbound frame is being received. -/
def Receiving (s : State) : Prop :=
  s.rxr.active = true ∧ 1 ≤ s.rxr.len ∧ s.rxr.len ≤ 1001 ∧ s.source.rest ≠ []

/-- The newest part of the FIFO is being emitted, its head frame up to the emission index. -/
def TxOpen (s : State) : Prop :=
  s.emission.queue <:+ s.sess.fifo ∧ ∃ f later, s.emission.queue = f :: later
    ∧ s.emission.index < f.length ∧ s.sink.part = f.take s.emission.index

/-! ### What the invariant says whatever `ST` is -/

theorem lastPushed_iff (s : State) : LastPushed s ↔ LastOut s.sess :=
  ⟨fun ⟨isLast, sent, low, high⟩ => ⟨isLast, sent, low, high⟩,
    fun ⟨isLast, sent, low, high⟩ => ⟨isLast, sent, low, high⟩⟩

theorem notPushed_iff (s : State) : NotPushed s ↔ Unsent s.sess :=
  ⟨fun ⟨unsent, count, sound, seq⟩ => ⟨unsent, count, sound, seq⟩,
    fun ⟨unsent, count, sound, seq⟩ => ⟨unsent, count, sound, seq⟩⟩

theorem configLegal_iff (s : State) : ConfigLegal s ↔ ConfigOk s.cfg :=
  ⟨fun ⟨a, b, c, d, e⟩ => ⟨a, b, c, d, e⟩, fun ⟨a, b, c, d, e⟩ => ⟨a, b, c, d, e⟩⟩

theorem codesLegal_iff (s : State) : CodesLegal s ↔ s.st ≠ .code6 ∧ s.st ≠ .code7 ∧ s.err.toNat ≤ 8 :=
  illegal?_eq_none_iff s

theorem Inv.steady {s : State} (inv : Inv s) : Steady s :=
  ⟨((codesLegal_iff s).1 inv.codes).2.2, (configLegal_iff s).1 inv.config, inv.memory, inv.rx.nonempty⟩

theorem Inv.sessionOk {s : State} (inv : Inv s) : SessionOk s.window s.sess :=
  ⟨inv.session.order, inv.session.sound, inv.session.flightLow, inv.session.flightHigh, inv.session.bound,
    inv.session.unlocked⟩

theorem Inv.window_pos {s : State} (inv : Inv s) : 1 ≤ s.window := inv.config.windowLow

/-- Where `ST` is neither IDLE nor CODEC the session has not failed. -/
theorem Inv.alive {s : State} (inv : Inv s) (idle : s.st ≠ .idle) (codec : s.st ≠ .codec) :
    s.sess.failed = false := by
  cases failed : s.sess.failed with
  | false => rfl
  | true => rcases inv.session.live failed with h | h <;> contradiction

theorem Inv.inSend {s : State} (inv : Inv s) (looping : s.looping) : InSend s.window s.sess where
  toSessionOk := inv.sessionOk
  alive := by
    refine inv.alive ?_ ?_ <;> rcases looping with h | h | ⟨h, -⟩ <;> simp [h]
  locked := inv.session.locked (.inl looping)
  packet := (inv.session.loopCount looping).imp (lastPushed_iff s).1 (notPushed_iff s).1

theorem Inv.txClosed {s : State} (inv : Inv s) (tx : s.st ≠ .tx) (retx : s.st ≠ .retx) : TxClosed s :=
  inv.emission.quiet ((emitting_eq_false_iff s).2 ⟨tx, retx⟩)

theorem Inv.rxClosed {s : State} (inv : Inv s) (rx : s.st ≠ .rx) : RxClosed s :=
  ⟨inv.rx.active.trans (decide_eq_false rx), not_not.1 fun rest => rx (inv.rx.source.2 rest)⟩

theorem Inv.noJob {s : State} (inv : Inv s) (codec : s.st ≠ .codec) : s.codec.job = none :=
  not_not.1 fun job => codec (inv.codec.job.2 job)

theorem Inv.quiet {s : State} (inv : Inv s) (h : s.st = .idle ∨ s.st = .waitAck) : Quiet s := by
  refine ⟨inv.txClosed ?_ ?_, inv.rxClosed ?_, inv.noJob ?_⟩ <;> rcases h with h | h <;> simp [h]

/-- While frames are emitted the RX port is closed, no codec command runs, and the session has not failed. -/
theorem Inv.closed_of_emitting {s : State} (inv : Inv s) (emitting : s.emitting = true) :
    RxClosed s ∧ s.codec.job = none ∧ s.sess.failed = false := by
  refine ⟨inv.rxClosed ?_, inv.noJob ?_, inv.alive ?_ ?_⟩ <;>
    rcases (emitting_eq_true_iff s).1 emitting with h | h <;> simp [h]

/-- In the wait loop the TX port is closed and no codec command runs. -/
theorem Inv.closed_of_waiting {s : State} (inv : Inv s) (wait : s.st = .waitAck ∨ s.st = .rx) :
    TxClosed s ∧ s.codec.job = none := by
  refine ⟨inv.txClosed ?_ ?_, inv.noJob ?_⟩ <;> rcases wait with h | h <;> simp [h]

theorem Inv.txOpen {s : State} (inv : Inv s) (emitting : s.emitting = true) : TxOpen s :=
  ⟨inv.emission.suffix emitting, inv.emission.head emitting⟩

/-! ### The invariant put together, state by state -/

theorem inv_of_resting {s : State} (resting : s.st = .idle ∨ s.st = .codec) (steady : Steady s)
    (ok : SessionOk s.window s.sess) (rested : Rested s) (tx : TxClosed s) (rx : RxClosed s)
    (job : s.st = .codec ↔ s.codec.job ≠ none) (frame : ∀ f, s.codec.job = some (.encode f) → FrameSound f) :
    Inv s := by
  obtain ⟨err, config, memory, waiting⟩ := steady
  obtain ⟨active, rest⟩ := rx
  exact {
    codes := (codesLegal_iff s).2 (by rcases resting with h | h <;> simp [h, err])
    config := (configLegal_iff s).2 config
    memory := memory
    session := {
      order := ok.order, sound := ok.sound, flightLow := ok.flightLow, flightHigh := ok.flightHigh
      bound := ok.bound, unlocked := ok.unlocked, resting := fun _ => rested, live := fun _ => resting
      locked := by rcases resting with h | h <;> simp [State.looping, h]
      loopOn := by rcases resting with h | h <;> simp [State.looping, h]
      loopCount := by rcases resting with h | h <;> simp [State.looping, h]
      txLoop := by rcases resting with h | h <;> simp [h]
      txFinish := by rcases resting with h | h <;> simp [h]
      retxFinish := by rcases resting with h | h <;> simp [h] }
    emission := ⟨fun _ => tx, by rcases resting with h | h <;> simp [h], by rcases resting with h | h <;> simp [h]⟩
    rx := ⟨by rcases resting with h | h <;> simp [h, active], by rcases resting with h | h <;> simp [h],
      by rcases resting with h | h <;> simp [h, rest], waiting⟩
    codec := ⟨job, frame⟩ }

theorem inv_of_idle {s : State} (idle : s.st = .idle) (steady : Steady s) (ok : SessionOk s.window s.sess)
    (rested : Rested s) (quiet : Quiet s) : Inv s := by
  obtain ⟨tx, rx, job⟩ := quiet
  exact inv_of_resting (.inl idle) steady ok rested tx rx (by simp [idle, job]) (by simp [job])

theorem inv_of_codec {s : State} (codec : s.st = .codec) (steady : Steady s) (ok : SessionOk s.window s.sess)
    (rested : Rested s) (tx : TxClosed s) (rx : RxClosed s) (job : s.codec.job ≠ none)
    (frame : ∀ f, s.codec.job = some (.encode f) → FrameSound f) : Inv s :=
  inv_of_resting (.inr codec) steady ok rested tx rx (by simp [codec, job]) frame

/-- In the wait loop the two states differ in the RX port alone. -/
theorem inv_of_waitLoop {s : State} (wait : s.st = .waitAck ∨ s.st = .rx) (steady : Steady s)
    (send : InSend s.window s.sess) (holds : loopHolds s = true) (tx : TxClosed s) (job : s.codec.job = none)
    (rx : (s.st = .waitAck ∧ RxClosed s) ∨ (s.st = .rx ∧ Receiving s)) : Inv s := by
  obtain ⟨err, config, memory, waiting⟩ := steady
  exact {
    codes := (codesLegal_iff s).2 (by rcases wait with h | h <;> simp [h, err])
    config := (configLegal_iff s).2 config
    memory := memory
    session := {
      order := send.order, sound := send.sound, flightLow := send.flightLow, flightHigh := send.flightHigh
      bound := send.bound, unlocked := send.unlocked
      resting := by rcases wait with h | h <;> simp [h]
      live := by simp [send.alive]
      locked := fun _ => send.locked
      loopOn := fun _ => holds
      loopCount := fun _ => send.packet.imp (lastPushed_iff s).2 (notPushed_iff s).2
      txLoop := by rcases wait with h | h <;> simp [h]
      txFinish := by rcases wait with h | h <;> simp [h]
      retxFinish := by rcases wait with h | h <;> simp [h] }
    emission := ⟨fun _ => tx, by rcases wait with h | h <;> simp [h], by rcases wait with h | h <;> simp [h]⟩
    rx := by
      rcases rx with ⟨h, active, rest⟩ | ⟨h, active, low, high, rest⟩
      · exact ⟨by simp [h, active], by simp [h], by simp [h, rest], waiting⟩
      · exact ⟨by simp [h, active], fun _ => ⟨low, high⟩, by simp [h, rest], waiting⟩
    codec := ⟨by rcases wait with h | h <;> simp [h, job], by simp [job]⟩ }

/-- What the session owes while frames are emitted: the packet counts of the wait loop where it is to go on, room
in the window where the command is to end (10_state R132, 41_arq_send R551, R552). -/
structure EmissionOwes (s : State) : Prop where
  txLocked : s.st = .tx → s.sess.cfgLocked = true
  txLoop : s.st = .tx → s.emission.cont = .loop → LastOut s.sess
  retxLoop : s.st = .retx → s.emission.cont = .loop → InSend s.window s.sess ∧ loopHolds s = true
  finish : s.emission.cont = .finish → s.fifoLen ≤ s.window

theorem Inv.owes {s : State} (inv : Inv s) (emitting : s.emitting = true) : EmissionOwes s where
  txLocked tx := inv.session.locked (.inr tx)
  txLoop tx loop := (lastPushed_iff s).1 (inv.session.txLoop tx loop)
  retxLoop retx loop := ⟨inv.inSend (.inr (.inr ⟨retx, loop⟩)), inv.session.loopOn (.inr (.inr ⟨retx, loop⟩))⟩
  finish h := by
    rcases (emitting_eq_true_iff s).1 emitting with tx | retx
    · exact inv.session.txFinish tx h
    · exact inv.session.retxFinish retx h

theorem inv_of_emitting {s : State} (emitting : s.st = .tx ∨ s.st = .retx) (steady : Steady s)
    (ok : SessionOk s.window s.sess) (alive : s.sess.failed = false) (tx : TxOpen s) (rx : RxClosed s)
    (job : s.codec.job = none) (owes : EmissionOwes s) : Inv s := by
  obtain ⟨err, config, memory, waiting⟩ := steady
  obtain ⟨active, rest⟩ := rx
  have retx_of_looping : s.looping → s.st = .retx ∧ s.emission.cont = .loop := by
    rintro (h | h | h)
    · rcases emitting with h' | h' <;> simp [h] at h'
    · rcases emitting with h' | h' <;> simp [h] at h'
    · exact h
  exact {
    codes := (codesLegal_iff s).2 (by rcases emitting with h | h <;> simp [h, err])
    config := (configLegal_iff s).2 config
    memory := memory
    session := {
      order := ok.order, sound := ok.sound, flightLow := ok.flightLow, flightHigh := ok.flightHigh
      bound := ok.bound, unlocked := ok.unlocked
      resting := by rcases emitting with h | h <;> simp [h]
      live := by simp [alive]
      locked := by
        rintro (looping | tx)
        · obtain ⟨retx, loop⟩ := retx_of_looping looping
          exact (owes.retxLoop retx loop).1.locked
        · exact owes.txLocked tx
      loopOn := fun looping => (owes.retxLoop (retx_of_looping looping).1 (retx_of_looping looping).2).2
      loopCount := fun looping =>
        (owes.retxLoop (retx_of_looping looping).1 (retx_of_looping looping).2).1.packet.imp
          (lastPushed_iff s).2 (notPushed_iff s).2
      txLoop := fun h loop => (lastPushed_iff s).2 (owes.txLoop h loop)
      txFinish := fun _ => owes.finish
      retxFinish := fun _ => owes.finish }
    emission := ⟨by rcases emitting with h | h <;> simp [h], fun _ => tx.1, fun _ => tx.2⟩
    rx := ⟨by rcases emitting with h | h <;> simp [h, active], by rcases emitting with h | h <;> simp [h],
      by rcases emitting with h | h <;> simp [h, rest], waiting⟩
    codec := ⟨by rcases emitting with h | h <;> simp [h, job], by simp [job]⟩ }

/-- The invariant does not read the interrupt registers, the timers, the counters, `hb_rdata`, the steps to come or
the count of free values; and of the datagrams that wait it asks only that none is empty. -/
theorem inv_of_waiting {s t : State} (inv : Inv s) (waiting : ∀ f ∈ t.source.waiting, f ≠ [])
    (same : t = { s with
      irq := t.irq, timers := t.timers, counters := t.counters, rdata := t.rdata, inputs := t.inputs
      freeCount := t.freeCount, source := { rest := s.source.rest, waiting := t.source.waiting } }) : Inv t := by
  obtain ⟨codes, ⟨wmaxLow, wmaxHigh, windowLow, windowHigh, ackWaitLow⟩, memory, session, emission, rx, codec⟩ := inv
  rw [same]
  exact {
    codes := codes
    config := ⟨wmaxLow, wmaxHigh, windowLow, windowHigh, ackWaitLow⟩
    memory := memory
    session := {
      order := session.order, sound := session.sound, flightLow := session.flightLow
      flightHigh := session.flightHigh, bound := session.bound, unlocked := session.unlocked
      resting := session.resting, live := session.live, locked := session.locked, loopOn := session.loopOn
      loopCount := fun h => (session.loopCount h).imp
        (fun pushed => (lastPushed_iff _).2 ((lastPushed_iff s).1 pushed))
        (fun unsent => (notPushed_iff _).2 ((notPushed_iff s).1 unsent))
      txLoop := fun h loop => (lastPushed_iff _).2 ((lastPushed_iff s).1 (session.txLoop h loop))
      txFinish := session.txFinish
      retxFinish := session.retxFinish }
    emission := ⟨emission.quiet, emission.suffix, emission.head⟩
    rx := ⟨rx.active, rx.started, rx.source, waiting⟩
    codec := ⟨codec.job, codec.frame⟩ }

theorem inv_of_unread {s t : State} (inv : Inv s)
    (same : t = { s with
      irq := t.irq, timers := t.timers, counters := t.counters, rdata := t.rdata, inputs := t.inputs
      freeCount := t.freeCount }) : Inv t := by
  have source : t.source = s.source := by rw [same]
  refine inv_of_waiting inv (source ▸ inv.rx.nonempty) (same.trans ?_)
  rw [source]

theorem inv_popped {s : State} (inv : Inv s) (rest : List Event) : Inv (s.popped rest) :=
  inv_of_unread inv rfl

/-! ### Reset -/

theorem configOk_reset {g : ConfigRegs} (low : 1 ≤ g.wmax.toNat) (high : g.wmax.toNat ≤ 32767) :
    ConfigOk { State.reset.cfg with wmax := g.wmax } :=
  ⟨low, high, show 1 ≤ (1#16).toNat by decide, low, show 1 ≤ (2#16).toNat by decide⟩

theorem sessionOk_reset (w : Nat) : SessionOk w State.reset.sess where
  order := by simp [State.reset]
  sound := by simp [State.reset]
  flightLow := by decide
  flightHigh := Int.natCast_nonneg w
  bound := Nat.zero_le _
  unlocked := fun _ => ⟨rfl, rfl⟩

theorem inv_resetBlock {s : State} (inv : Inv s) : Inv (resetBlock s) :=
  inv_of_idle rfl
    ⟨Nat.zero_le _, configOk_reset inv.config.wmaxLow inv.config.wmaxHigh, wf_abandonedMem inv.memory, inv.rx.nonempty⟩
    (sessionOk_reset _) (fun _ => Nat.zero_le _) ⟨⟨rfl, rfl⟩, ⟨rfl, rfl⟩, rfl⟩

theorem wmax_toNat : Config.wmax.toNat = Config.wmaxLessOne.val + 1 := by
  have := Config.wmaxLessOne.isLt
  rw [Config.wmax, BitVec.toNat_ofNat]
  omega

/-- Settles O53: `WMAX` is legal by its type, and every other register has its reset value. -/
theorem invariantAtReset : Obligations.InvariantAtReset := by
  have := Config.wmaxLessOne.isLt
  have config : ConfigOk State.reset.cfg :=
    configOk_reset (g := State.reset.cfg) (by simp only [State.reset, wmax_toNat]; omega)
      (by simp only [State.reset, wmax_toNat]; omega)
  exact inv_of_idle rfl ⟨Nat.zero_le _, config, rfl, by simp [State.reset]⟩ (sessionOk_reset _)
    (fun _ => Nat.zero_le _) ⟨⟨rfl, rfl⟩, ⟨rfl, rfl⟩, rfl⟩

end Sys2Proof.Machine
end

section
/-!
A SEND between its steps (41_arq_send R501 to R511, 42_arq_events R620 to R624): what a push, an ACK and an acceptance
make of the session, and the four ways the SEND can then go on.
-/
namespace Sys2Proof.Machine

/-! ### The frame a command builds -/

theorem frameSound_encodeFrame (seq : Seq) (flag : PacketFlag) {p : List Byte}
    (legal : p.length ≤ Config.maxPayload) :
    FrameSound (encodeFrame seq flag p) where
  low := (encodeFrame_length_le seq flag p legal).1
  high := (encodeFrame_length_le seq flag p legal).2
  sum := passesChecksum_encodeFrame seq flag p
  flag := flag.code_le

theorem frameSound_payload (seq : Seq) (flag : PacketFlag) {len : BitVec 10} (s : State)
    (legal : len.toNat ≤ Config.maxPayload) : FrameSound (encodeFrame seq flag (payloadOperand s len)) :=
  frameSound_encodeFrame seq flag ((payloadOperand_length s len).trans_le legal)

theorem frame_ne_nil {f : Frame} (sound : FrameSound f) : f ≠ [] :=
  List.ne_nil_of_length_pos (Nat.lt_of_lt_of_le (by decide) sound.low)

/-! ### IN_FLIGHT as a number -/

/-- A count that fits in 17 bits is loaded as it is (10_state R121). -/
theorem toInt_ofNat_inFlight {n : Nat} (h : n < 131072) : (BitVec.ofNat 18 n).toInt = n := by
  have value : (BitVec.ofNat 18 n).toNat = n := by
    rw [BitVec.toNat_ofNat]
    omega
  rw [BitVec.toInt_eq_toNat_of_lt (by omega), value]

/-- An ACK count taken from a count that is not negative does not wrap (00_scope R17). -/
theorem toInt_inFlight_sub {x : BitVec 18} (h : 0 ≤ x.toInt) (c : BitVec 16) :
    (x - c.setWidth 18).toInt = x.toInt - c.toNat := by
  have count := c.isLt
  have high := BitVec.toInt_lt (x := x)
  have wide : (c.setWidth 18).toInt = c.toNat := by
    have value : (c.setWidth 18).toNat = c.toNat := by
      rw [BitVec.toNat_setWidth]
      omega
    rw [BitVec.toInt_eq_toNat_of_lt (by omega), value]
  rw [BitVec.toInt_sub, wide, Int.bmod_eq_of_le (by omega) (by omega)]

/-! ### A push (41_arq_send R510) -/

theorem sessionOk_push {w : Nat} {f : Frame} {k : TxCont} {s : State} (ok : SessionOk w s.sess)
    (sound : FrameSound f) (seq : frameSeq f = s.sess.nextSeq) (locked : s.sess.cfgLocked = true)
    (room : s.fifoLen ≤ w) : SessionOk w (push f k s).sess where
  order i g at_i := by
    have length : ((s.sess.fifo ++ [f]).length : Nat) = s.sess.fifo.length + 1 := by simp
    rw [push_sess_fifo] at at_i
    rw [push_sess_fifo, push_sess_nextSeq, length, BitVec.ofNat_add]
    rcases Nat.lt_or_ge i s.sess.fifo.length with old | new
    · rw [List.getElem?_append_left old] at at_i
      rw [ok.order i g at_i]
      ring
    · rw [List.getElem?_append_right new, List.getElem?_singleton] at at_i
      split at at_i
      · cases at_i
        rw [seq, show i = s.sess.fifo.length by omega]
        ring
      · cases at_i
  sound g mem := by
    rcases List.mem_append.1 mem with old | new
    · exact ok.sound g old
    · exact List.mem_singleton.1 new ▸ sound
  flightLow := ok.flightLow
  flightHigh := ok.flightHigh
  bound := by
    rw [push_sess_fifo, List.length_append]
    exact Nat.add_le_add_right room 1
  unlocked h := absurd (locked.symm.trans h) (by decide)

/-- A packet not yet sent leaves a slot of the window free for the frames outstanding (10_state R132, R133). -/
theorem fifo_length_le_of_unsent {w : Nat} {q : Session} (ok : SessionOk w q) (unsent : Unsent q) :
    q.fifo.length ≤ w := by
  have := unsent.count
  have := ok.flightHigh
  omega

theorem lastOut_push {k : TxCont} {s : State} (last : s.sess.curFlag = .last) (unsent : Unsent s.sess) :
    LastOut (push s.sess.pending k s).sess where
  isLast := last
  sent := if_pos last
  atLeast := by
    have := unsent.count
    simp only [push_sess_fifo, push_sess_inFlight, List.length_append, List.length_singleton]
    omega
  atMost := by
    have := unsent.count
    simp only [push_sess_fifo, push_sess_inFlight, List.length_append, List.length_singleton]
    omega

/-! ### An ACK (42_arq_events R621) -/

theorem sessionOk_dropAcked {w : Nat} {acked : Seq} {s : State} (ok : SessionOk w s.sess) (positive : 0 < s.flight)
    (locked : s.sess.cfgLocked = true) : SessionOk w (dropAcked acked s).sess where
  order i f at_i := by
    rw [dropAcked_sess_fifo, List.getElem?_drop] at at_i
    have inRange := (List.getElem?_eq_some_iff.1 at_i).1
    rw [ok.order _ f at_i, dropAcked_sess_nextSeq, dropAcked_sess_fifo, List.length_drop]
    generalize (ackCountOf acked s.sess.oldestSeq).toNat = c at inRange
    obtain ⟨rest, length⟩ := Nat.exists_eq_add_of_le (show c ≤ s.sess.fifo.length by omega)
    rw [length, Nat.add_sub_cancel_left, BitVec.ofNat_add, BitVec.ofNat_add]
    ring
  sound f mem := ok.sound f (List.mem_of_mem_drop mem)
  flightLow := by
    rw [dropAcked_sess_inFlight, toInt_inFlight_sub (Int.le_of_lt positive)]
    have := (ackCountOf acked s.sess.oldestSeq).isLt
    have : 0 < s.sess.inFlight.toInt := positive
    omega
  flightHigh := by
    rw [dropAcked_sess_inFlight, toInt_inFlight_sub (Int.le_of_lt positive)]
    have := ok.flightHigh
    omega
  bound := by
    rw [dropAcked_sess_fifo, List.length_drop]
    have := ok.bound
    omega
  unlocked h := absurd (locked.symm.trans h) (by decide)

theorem inSend_dropAcked {w : Nat} {acked : Seq} {s : State} (send : InSend w s.sess) (positive : 0 < s.flight) :
    InSend w (dropAcked acked s).sess where
  toSessionOk := sessionOk_dropAcked send.toSessionOk positive send.locked
  alive := send.alive
  locked := send.locked
  packet := by
    have inFlight := toInt_inFlight_sub (Int.le_of_lt positive) (ackCountOf acked s.sess.oldestSeq)
    have : 0 < s.sess.inFlight.toInt := positive
    rcases send.packet with out | unsent
    · have low := out.atLeast
      have high := out.atMost
      refine .inl ⟨out.isLast, out.sent, ?_, ?_⟩ <;>
        rw [dropAcked_sess_inFlight, dropAcked_sess_fifo, List.length_drop, inFlight] <;> omega
    · have count := unsent.count
      refine .inr ⟨unsent.notSent, ?_, unsent.pendingSound, unsent.pendingSeq⟩
      rw [dropAcked_sess_inFlight, dropAcked_sess_fifo, List.length_drop, inFlight]
      omega

/-! ### Acceptance (41_arq_send R501) -/

theorem unsent_loadSend {g : PacketFlag} {len : BitVec 10} {s : State} (legal : len.toNat ≤ Config.maxPayload)
    (room : s.fifoLen ≤ 32767) : Unsent (loadSend g len s).sess where
  notSent := rfl
  count := by
    rw [loadSend_sess_inFlight, toInt_ofNat_inFlight (by omega)]
    have : (loadSend g len s).sess.fifo.length = s.fifoLen := rfl
    omega
  pendingSound := frameSound_payload _ g s legal
  pendingSeq := frameSeq_encodeFrame _ _ _

theorem window_le_of_inv {s : State} (inv : Inv s) : s.window ≤ 32767 :=
  inv.config.windowHigh.trans inv.config.wmaxHigh

theorem inSend_loadSend {g : PacketFlag} {len : BitVec 10} {s : State} (inv : Inv s) (idle : s.st = .idle)
    (legal : len.toNat ≤ Config.maxPayload) (alive : s.sess.failed = false) :
    InSend s.window (loadSend g len s).sess := by
  have room : s.fifoLen ≤ s.window := inv.session.resting (.inl idle) alive
  have narrow := window_le_of_inv inv
  have flight : (loadSend g len s).sess.inFlight.toInt = s.fifoLen := toInt_ofNat_inFlight (by omega)
  exact {
    order := inv.session.order
    sound := inv.session.sound
    flightLow := by omega
    flightHigh := by omega
    bound := inv.session.bound
    unlocked := fun h => by simp at h
    alive := alive
    locked := rfl
    packet := .inr (unsent_loadSend legal (by omega)) }

/-! ### How a SEND goes on -/

/-- The step of a SEND that has not ended: an attempt, the end, or the push of its packet, which is `PENDING`
(41_arq_send R502 to R504, 42_arq_events R623). -/
inductive SendStep (s : State) : State → Prop
  | attempt (holds : loopHolds s = true) : SendStep s (startAttempt s)
  | done (room : s.fifoLen ≤ s.window) : SendStep s (complete errOk s)
  | pushLast (unsent : Unsent s.sess) (last : s.sess.curFlag = .last) : SendStep s (push s.sess.pending .loop s)
  | pushData (unsent : Unsent s.sess) (room : s.fifoLen < s.window) : SendStep s (push s.sess.pending .finish s)

/-- A LAST packet sent out of the loop leaves at most itself outstanding (41_arq_send R552). -/
theorem fifoLen_le_one_of_last {s : State} (send : InSend s.window s.sess) (last : s.sess.curFlag = .last)
    (leaves : loopHolds s = false) : s.fifoLen ≤ 1 := by
  have notHolds := mt (loopHolds_iff s).2 (by simp [leaves])
  have flight : s.sess.inFlight.toInt ≤ 0 := by
    by_contra positive
    exact notHolds (.inr ⟨last, not_le.1 positive⟩)
  show s.sess.fifo.length ≤ 1
  rcases send.packet with out | unsent
  · have := out.atMost
    omega
  · have := unsent.count
    omega

/-- A data packet out of the loop has room in the window (41_arq_send R551). -/
theorem unsent_of_data {s : State} (send : InSend s.window s.sess) (window : 1 ≤ s.window)
    (data : s.sess.curFlag ≠ .last) (leaves : loopHolds s = false) : Unsent s.sess ∧ s.fifoLen < s.window := by
  have unsent : Unsent s.sess := send.packet.resolve_left fun out => data out.isLast
  have flight : s.sess.inFlight.toInt < s.window := by
    by_contra full
    exact absurd ((loopHolds_iff s).2 (.inl (not_lt.1 full))) (by simp [leaves])
  have count : (s.fifoLen : Int) = max 0 s.sess.inFlight.toInt := unsent.count
  exact ⟨unsent, by omega⟩

theorem sendStep_loopTest {s : State} (send : InSend s.window s.sess) (window : 1 ≤ s.window) :
    SendStep s (loopTest s) := by
  rcases loopTest_spec s with ⟨holds, waits⟩ | ⟨leaves, last, ends⟩ | ⟨leaves, data, pushes⟩
  · exact waits ▸ .attempt holds
  · exact ends ▸ .done ((fifoLen_le_one_of_last send last leaves).trans window)
  · obtain ⟨unsent, room⟩ := unsent_of_data send window data leaves
    exact pushes ▸ .pushData unsent room

theorem sendStep_afterAck {s : State} (send : InSend s.window s.sess) (window : 1 ≤ s.window) :
    SendStep s (afterAck s) := by
  rcases afterAck_spec s with ⟨last, notSent, pushes⟩ | ⟨-, tests⟩
  · have unsent : Unsent s.sess := send.packet.resolve_left fun out => by simp [out.sent] at notSent
    exact pushes ▸ .pushLast unsent last
  · exact tests ▸ sendStep_loopTest send window

theorem sendStep_firstPush {s : State} (send : InSend s.window s.sess) (window : 1 ≤ s.window)
    (unsent : Unsent s.sess) : SendStep s (firstPush s) := by
  rcases firstPush_spec s with ⟨last, -, pushes⟩ | ⟨-, tests⟩
  · exact pushes ▸ .pushLast unsent last
  · exact tests ▸ sendStep_loopTest send window

/-! ### The invariant after the step -/

theorem inv_complete {s : State} {code : ErrCode} (legal : code.toNat ≤ 8) (steady : Steady s)
    (ok : SessionOk s.window s.sess) (rested : Rested s) (quiet : Quiet s) : Inv (complete code s) := by
  obtain ⟨-, config, memory, waiting⟩ := steady
  exact inv_of_idle rfl ⟨legal, config, memory, waiting⟩ ok rested quiet

theorem inv_startAttempt {s : State} (steady : Steady s) (send : InSend s.window s.sess)
    (holds : loopHolds s = true) (quiet : Quiet s) : Inv (startAttempt s) := by
  obtain ⟨tx, rx, job⟩ := quiet
  exact inv_of_waitLoop (.inl rfl) steady send holds tx job (.inl ⟨rfl, rx⟩)

/-- The pushed packet alone is queued, behind whatever the FIFO holds. -/
theorem txOpen_push {f : Frame} {k : TxCont} {s : State} (sound : FrameSound f) (part : s.sink.part = []) :
    TxOpen (push f k s) :=
  ⟨List.suffix_append _ _, f, [], rfl, List.length_pos_of_ne_nil (frame_ne_nil sound), part⟩

theorem inv_push {k : TxCont} {s : State} (steady : Steady s) (send : InSend s.window s.sess) (quiet : Quiet s)
    (unsent : Unsent s.sess) (loop : k = .loop → s.sess.curFlag = .last)
    (finish : k = .finish → s.fifoLen < s.window) : Inv (push s.sess.pending k s) := by
  obtain ⟨⟨-, part⟩, rx, job⟩ := quiet
  refine inv_of_emitting (.inl rfl) steady ?_ send.alive (txOpen_push unsent.pendingSound part) rx job ?_
  · exact sessionOk_push send.toSessionOk unsent.pendingSound unsent.pendingSeq send.locked
      (fifo_length_le_of_unsent send.toSessionOk unsent)
  · refine ⟨fun _ => send.locked, fun _ h => lastOut_push (loop h) unsent, fun h => by simp at h, fun h => ?_⟩
    have length : (push s.sess.pending k s).fifoLen = s.fifoLen + 1 := List.length_append
    exact length.trans_le (finish h)

theorem SendStep.inv {s t : State} (next : SendStep s t) (steady : Steady s) (send : InSend s.window s.sess)
    (quiet : Quiet s) : Inv t := by
  cases next with
  | attempt holds => exact inv_startAttempt steady send holds quiet
  | done room => exact inv_complete (by decide) steady send.toSessionOk (fun _ => room) quiet
  | pushLast unsent last => exact inv_push steady send quiet unsent (fun _ => last) (fun h => by cases h)
  | pushData unsent room => exact inv_push steady send quiet unsent (fun h => by cases h) (fun _ => room)

end Sys2Proof.Machine
end

section
/-!
The invariant over the steps of the sequencer and the ports: what each step of TX, RX, the tick source and the codec
can answer from a state of the invariant, and that each answer keeps it.
-/
namespace Sys2Proof.Machine

/-! ### The codec (40_codec R410, R420) -/

theorem wf_writeCodecResults {s : State} (wf : Memory.wf s.mem = true) :
    Memory.wf (writeCodecResults s).mem = true := by
  unfold writeCodecResults
  split
  · exact wf
  · exact Memory.wf_storeBytes _ wf _
  · exact wf

theorem inv_codecStep {s : State} (inv : Inv s) : Inv (codecStep s) := by
  by_cases codec : s.st = .codec
  · obtain ⟨err, config, memory, waiting⟩ := inv.steady
    have tx : TxClosed s := inv.txClosed (by simp [codec]) (by simp [codec])
    have rx : RxClosed s := inv.rxClosed (by simp [codec])
    have rested : Rested s := inv.session.resting (.inr codec)
    rw [codecStep, if_pos codec, writeCodecResults_frame]
    exact inv_complete (by decide) ⟨err, config, wf_writeCodecResults memory, waiting⟩ inv.sessionOk rested
      ⟨tx, rx, rfl⟩
  · rwa [codecStep_of_not_codec s codec]

/-! ### The TX port (41_arq_send R511) -/

/-- `s` with its head frame gone from `TXQ`, `later` left there, and the sink as `k`. -/
def State.emitted (s : State) (k : TxSink) (later : List Frame) : State :=
  { s with sink := k, emission := { s.emission with queue := later, index := 0 } }

theorem frameEmitted_with_sink {s : State} {f : Frame} {later : List Frame} (queue : s.emission.queue = f :: later)
    (k : TxSink) : frameEmitted { s with sink := k }
      = if later = [] then continueAfterTx (s.emitted k []) else s.emitted k later := by
  have tail : s.emission.queue.tail = later := by rw [queue]; rfl
  rcases frameEmitted_spec { s with sink := k } with ⟨more, next⟩ | ⟨none, next⟩
  · rw [next, if_neg (tail ▸ more), State.emitted, ← tail]
  · rw [next, if_pos (tail.symm.trans none)]
    rfl

/-- The answers of the TX port to the last byte of its head frame, with `later` still to emit. -/
inductive EmissionStep (s : State) (k : TxSink) (later : List Frame) : State → Prop
  | more (left : later ≠ []) : EmissionStep s k later (s.emitted k later)
  | attempt (none : later = []) (loop : s.emission.cont = .loop) (send : InSend s.window s.sess)
      (holds : loopHolds s = true) : EmissionStep s k later (startAttempt (s.emitted k []))
  | done (none : later = []) (ends : s.emission.cont = .finish ∨ loopHolds s = false)
      (room : s.fifoLen ≤ s.window) : EmissionStep s k later (complete errOk (s.emitted k []))

/-- Inside a SEND that emits, the packet counts of the wait loop hold. -/
theorem Inv.inSend_of_emitting {s : State} (inv : Inv s) (emitting : s.emitting = true)
    (loop : s.emission.cont = .loop) : InSend s.window s.sess := by
  have owes := inv.owes emitting
  rcases (emitting_eq_true_iff s).1 emitting with tx | retx
  · exact ⟨inv.sessionOk, inv.alive (by simp [tx]) (by simp [tx]), owes.txLocked tx, .inl (owes.txLoop tx loop)⟩
  · exact (owes.retxLoop retx loop).1

/-- Once its frames are out a SEND under LOOP waits or has sent its LAST packet: it does not push again. -/
theorem emissionStep_frameEmitted {s : State} {f : Frame} {later : List Frame} (inv : Inv s)
    (emitting : s.emitting = true) (queue : s.emission.queue = f :: later) (k : TxSink) :
    EmissionStep s k later (frameEmitted { s with sink := k }) := by
  rw [frameEmitted_with_sink queue]
  by_cases none : later = []
  · rw [if_pos none]
    cases cont : s.emission.cont with
    | finish =>
      rw [continueAfterTx_of_finish (s.emitted k []) cont]
      exact .done none (.inl cont) ((inv.owes emitting).finish cont)
    | loop =>
      have send := inv.inSend_of_emitting emitting cont
      rw [continueAfterTx_of_loop (s.emitted k []) cont]
      rcases loopTest_spec (s.emitted k []) with ⟨holds, next⟩ | ⟨leaves, last, next⟩ | ⟨leaves, data, next⟩
      · exact next ▸ .attempt none cont send holds
      · exact next ▸ .done none (.inr leaves) ((fifoLen_le_one_of_last send last leaves).trans inv.window_pos)
      · rcases (emitting_eq_true_iff s).1 emitting with tx | retx
        · exact absurd ((inv.owes emitting).txLoop tx cont).isLast data
        · exact absurd (((inv.owes emitting).retxLoop retx cont).2.symm.trans leaves) (by decide)
  · rw [if_neg none]
    exact .more none

theorem EmissionStep.inv {s t : State} {f : Frame} {k : TxSink} {later : List Frame} (next : EmissionStep s k later t)
    (inv : Inv s) (emitting : s.emitting = true) (queue : s.emission.queue = f :: later) (part : k.part = []) :
    Inv t := by
  obtain ⟨rx, job, alive⟩ := inv.closed_of_emitting emitting
  cases next with
  | more left =>
    obtain ⟨g, later', rfl⟩ := List.exists_cons_of_ne_nil left
    have suffix : g :: later' <:+ s.sess.fifo :=
      (queue ▸ List.suffix_cons f (g :: later')).trans (inv.txOpen emitting).1
    have sound : FrameSound g := inv.session.sound g (suffix.subset (List.mem_cons_self ..))
    have owes := inv.owes emitting
    exact inv_of_emitting ((emitting_eq_true_iff s).1 emitting) inv.steady inv.sessionOk alive
      ⟨suffix, g, later', rfl, List.length_pos_of_ne_nil (frame_ne_nil sound), part⟩ rx job
      ⟨owes.txLocked, owes.txLoop, owes.retxLoop, owes.finish⟩
  | attempt none loop send holds => exact inv_startAttempt inv.steady send holds ⟨⟨rfl, part⟩, rx, job⟩
  | done none ends room =>
    exact inv_complete (by decide) inv.steady inv.sessionOk (fun _ => room) ⟨⟨rfl, part⟩, rx, job⟩

/-- `s` with one more byte of its head frame taken. -/
def State.advanced (s : State) (b : Byte) : State :=
  { s with sink := s.sink.take b false, emission := { s.emission with index := s.emission.index + 1 } }

/-- The answers of the TX port to `tx_ready` = 1, and to a sink that takes a whole frame (20_memory R220). -/
inductive TxStep (s : State) : State → Prop
  | closed : TxStep s s
  | byte {f later b} (emitting : s.emitting = true) (queue : s.emission.queue = f :: later)
      (offered : f[s.emission.index]? = some b) (notLast : s.emission.index + 1 ≠ f.length) :
      TxStep s (s.advanced b)
  | frame {f later k t} (emitting : s.emitting = true) (queue : s.emission.queue = f :: later)
      (part : k.part = []) (next : EmissionStep s k later t) : TxStep s t

theorem txStep_txByteStep {s : State} (inv : Inv s) : TxStep s (txByteStep s) := by
  rcases txByteStep_spec s with ⟨-, next⟩ | ⟨b, offered, next⟩ | ⟨b, offered, next⟩
  · rw [next]
    exact .closed
  · obtain ⟨states, f, later, queue, -, -⟩ := txOffer_spec offered
    have emitting := (emitting_eq_true_iff s).2 states
    rw [next]
    exact .frame emitting queue rfl (emissionStep_frameEmitted inv emitting queue _)
  · obtain ⟨states, f, later, queue, atIndex, notLast⟩ := txOffer_spec offered
    rw [next]
    exact .byte ((emitting_eq_true_iff s).2 states) queue atIndex (of_decide_eq_false notLast.symm)

theorem txStep_txFrameStep {s : State} (inv : Inv s) : TxStep s (txFrameStep s) := by
  unfold txFrameStep
  split
  · rename_i emitting
    split
    · exact .closed
    · rename_i f later queue
      exact .frame emitting queue rfl (emissionStep_frameEmitted inv emitting queue _)
  · exact .closed

theorem TxStep.inv {s t : State} (next : TxStep s t) (inv : Inv s) : Inv t := by
  cases next with
  | closed => exact inv
  | frame emitting queue part next => exact next.inv inv emitting queue part
  | @byte f later b emitting queue offered notLast =>
    obtain ⟨rx, job, alive⟩ := inv.closed_of_emitting emitting
    obtain ⟨suffix, g, later', queue', inRange, part⟩ := inv.txOpen emitting
    obtain ⟨rfl, rfl⟩ : f = g ∧ later = later' := by simpa [queue] using queue'
    have taken : s.sink.part ++ [b] = f.take (s.emission.index + 1) := by
      rw [List.take_add_one, offered, part]
      rfl
    have owes := inv.owes emitting
    exact inv_of_emitting ((emitting_eq_true_iff s).1 emitting) inv.steady inv.sessionOk alive
      ⟨suffix, f, later, queue, Nat.lt_of_le_of_ne inRange notLast, taken⟩ rx job
      ⟨owes.txLocked, owes.txLoop, owes.retxLoop, owes.finish⟩

/-! ### The RX port (42_arq_events R602 to R605, R620 to R624) -/

/-- A SEND in its wait loop with the last byte of an inbound frame taken. -/
structure AtFrameEnd (s : State) : Prop where
  steady : Steady s
  send : InSend s.window s.sess
  holds : loopHolds s = true
  txClosed : TxClosed s
  sourceClosed : s.source.rest = []
  noJob : s.codec.job = none

/-- `s` with the frame it has received ended, and counted in `c`. -/
def State.frameEnded (s : State) (c : Counters) : State :=
  { s with rxr := { s.rxr with active := false }, counters := c }

/-- The answers to the end of an inbound frame: a new attempt, or the ACK and what the SEND does then. -/
inductive FrameEndStep (s : State) : State → Prop
  | dropped (c : Counters) : FrameEndStep s (startAttempt (s.frameEnded c))
  | acked (c : Counters) {t : State} (next : SendStep (dropAcked s.rxr.seq (s.frameEnded c)) t) : FrameEndStep s t

theorem flight_pos_of_loopHolds {s : State} (holds : loopHolds s = true) (window : 1 ≤ s.window) : 0 < s.flight := by
  rcases (loopHolds_iff s).1 holds with full | ⟨-, unacked⟩
  · omega
  · exact unacked

theorem AtFrameEnd.window_pos {s : State} (h : AtFrameEnd s) : 1 ≤ s.window := by
  obtain ⟨-, config, -, -⟩ := h.steady
  exact config.windowLow

theorem AtFrameEnd.inSend_acked {s : State} (h : AtFrameEnd s) (acked : Seq) (c : Counters) :
    InSend s.window (dropAcked acked (s.frameEnded c)).sess :=
  inSend_dropAcked (s := s.frameEnded c) h.send (flight_pos_of_loopHolds h.holds h.window_pos)

theorem frameEndStep_endRxFrame {s : State} (h : AtFrameEnd s) : FrameEndStep s (endRxFrame s) := by
  rcases endRxFrame_spec s with ⟨-, next⟩ | ⟨-, -, next⟩ | ⟨-, -, next⟩ <;> rw [next]
  · exact .dropped _
  · exact .dropped _
  · exact .acked { s.counters with ack := s.counters.ack + 1#32 }
      (sendStep_afterAck (h.inSend_acked _ _) h.window_pos)

theorem FrameEndStep.inv {s t : State} (next : FrameEndStep s t) (h : AtFrameEnd s) : Inv t := by
  cases next with
  | dropped c => exact inv_startAttempt h.steady h.send h.holds ⟨h.txClosed, ⟨rfl, h.sourceClosed⟩, h.noJob⟩
  | acked c next =>
    exact next.inv h.steady (h.inSend_acked _ c) ⟨h.txClosed, ⟨rfl, h.sourceClosed⟩, h.noJob⟩

/-- In the wait loop, once the source has no more of the frame it delivers. -/
theorem Inv.atFrameEnd {s : State} (inv : Inv s) (wait : s.st = .waitAck ∨ s.st = .rx) {t : State}
    (session : t.sess = s.sess) (config : t.cfg = s.cfg) (steady : Steady t) (tx : TxClosed t)
    (source : t.source.rest = []) (job : t.codec = s.codec) : AtFrameEnd t where
  steady := steady
  send := by
    rw [State.window, config, session]
    exact inv.inSend (wait.imp_right .inl)
  holds := by
    rw [loopHolds, config, session]
    exact inv.session.loopOn (wait.imp_right .inl)
  txClosed := tx
  sourceClosed := source
  noJob := job ▸ (inv.closed_of_waiting wait).2

/-- `s` with one RX byte taken, the source as it then is. -/
def State.byteTaken (s : State) (x : Byte) (source : RxSource) : State :=
  { openRxFrame { s with source := source } with
    rxr := (openRxFrame { s with source := source }).rxr.take x
    counters := { s.counters with
      trunc := if (openRxFrame { s with source := source }).rxr.len = 1000 then s.counters.trunc + 1#32
        else s.counters.trunc } }

/-- What opening a frame sets: `ST` and the RX registers. -/
theorem openRxFrame_frame (s : State) :
    openRxFrame s = { s with st := (openRxFrame s).st, rxr := (openRxFrame s).rxr } := by
  unfold openRxFrame
  split <;> rfl

theorem receiveByte_with_source (x : Byte) (isLast : Bool) (s : State) (source : RxSource) :
    receiveByte x isLast { s with source := source }
      = if isLast then endRxFrame (s.byteTaken x source) else s.byteTaken x source := by
  have counters : (openRxFrame { s with source := source }).counters = s.counters := by
    rw [openRxFrame_frame]
  simp only [receiveByte, State.byteTaken, counters]

/-- The answers of the RX port to a byte, or to a whole frame. -/
inductive RxStep (s : State) : State → Prop
  | closed : RxStep s s
  | byte {x source} (ready : s.st = .waitAck ∨ s.st = .rx) (offered : s.source.offer = some (x, false, source)) :
      RxStep s (s.byteTaken x source)
  | frame {u t} (ready : s.st = .waitAck ∨ s.st = .rx) (session : u.sess = s.sess) (ended : AtFrameEnd u)
      (next : FrameEndStep u t) : RxStep s t

theorem waiting_of_offer {s : State} (steady : Steady s) {x : Byte} {l : Bool} {source : RxSource}
    (offered : s.source.offer = some (x, l, source)) : ∀ f ∈ source.waiting, f ≠ [] := by
  obtain ⟨-, -, -, waiting⟩ := steady
  rcases (offer_spec offered).2 with ⟨-, same⟩ | ⟨-, head⟩
  · rwa [same]
  · intro f mem
    exact waiting f (head ▸ List.mem_cons_of_mem _ mem)

theorem byteTaken_frame (s : State) (x : Byte) (source : RxSource) :
    s.byteTaken x source = { s with
      st := (s.byteTaken x source).st, rxr := (s.byteTaken x source).rxr
      counters := (s.byteTaken x source).counters, source := source } := by
  rw [State.byteTaken, openRxFrame_frame]

theorem steady_byteTaken {s : State} (steady : Steady s) {x : Byte} {l : Bool} {source : RxSource}
    (offered : s.source.offer = some (x, l, source)) : Steady (s.byteTaken x source) := by
  have waiting := waiting_of_offer steady offered
  obtain ⟨err, config, memory, -⟩ := steady
  rw [byteTaken_frame]
  exact ⟨err, config, memory, waiting⟩

theorem rxStep_rxByteStep {s : State} (inv : Inv s) : RxStep s (rxByteStep s) := by
  unfold rxByteStep
  split
  · rename_i ready
    have wait := (rxReady_eq_true_iff s).1 ready
    have tx : TxClosed s := (inv.closed_of_waiting wait).1
    split
    · exact .closed
    · rename_i x isLast source offered
      rw [receiveByte_with_source]
      cases isLast with
      | false => exact .byte wait offered
      | true =>
        have rest : source.rest = [] := List.isEmpty_iff.1 (offer_spec offered).1.symm
        have session : (s.byteTaken x source).sess = s.sess := by rw [byteTaken_frame]
        have ended : AtFrameEnd (s.byteTaken x source) := by
          refine inv.atFrameEnd wait session ?_ (steady_byteTaken inv.steady offered) ?_ ?_ ?_ <;>
            rw [byteTaken_frame]
          · exact tx
          · exact rest
        exact .frame wait session ended (frameEndStep_endRxFrame ended)
  · exact .closed

theorem rxStep_rxFrameStep {s : State} (inv : Inv s) : RxStep s (rxFrameStep s) := by
  unfold rxFrameStep
  split
  · rename_i ready
    obtain ⟨wait, -⟩ := ready
    split
    · exact .closed
    · rename_i f later queued
      obtain ⟨err, config, memory, waiting⟩ := inv.steady
      have nonempty : f ≠ [] := waiting f (queued ▸ List.mem_cons_self ..)
      have ended : AtFrameEnd ((s.delivered s.inputs later).frameTaken f) :=
        inv.atFrameEnd (.inl wait) rfl rfl
          ⟨err, config, memory, fun g mem => waiting g (queued ▸ List.mem_cons_of_mem _ mem)⟩
          (inv.quiet (.inr wait)).1 rfl rfl
      have next : FrameEndStep ((s.delivered s.inputs later).frameTaken f)
          (receiveBytes f (s.delivered s.inputs later)) := by
        rw [receiveBytes_of_waitAck (s := s.delivered s.inputs later) wait nonempty]
        exact frameEndStep_endRxFrame ended
      exact .frame (u := (s.delivered s.inputs later).frameTaken f) (.inl wait) rfl ended next
  · exact .closed

/-- The byte that does not end its frame leaves the block in RX with the rest of the frame to come. -/
theorem receiving_byteTaken {s : State} (inv : Inv s) (wait : s.st = .waitAck ∨ s.st = .rx) {x : Byte}
    {source : RxSource} (offered : s.source.offer = some (x, false, source)) :
    (s.byteTaken x source).st = .rx ∧ Receiving (s.byteTaken x source) := by
  have rest : source.rest ≠ [] := by
    have notLast := (offer_spec offered).1
    intro none
    simp [none] at notLast
  rcases wait with wait | rx
  · have opened : openRxFrame { s with source := source }
        = { s with source := source, st := .rx, rxr := { s.rxr with active := true, len := 0, sum := 0#8 } } :=
      if_pos wait
    simp [State.byteTaken, opened, Receiving, RxRegs.take, rest]
  · have opened : openRxFrame { s with source := source } = { s with source := source } :=
      if_neg (by simp [rx])
    have active : s.rxr.active = true := inv.rx.active.trans (decide_eq_true rx)
    obtain ⟨low, high⟩ := inv.rx.started rx
    have len : 1 ≤ (s.rxr.take x).len ∧ (s.rxr.take x).len ≤ 1001 := by
      rw [RxRegs.take_len]
      split <;> omega
    rw [State.byteTaken, opened]
    exact ⟨rx, active, len.1, len.2, rest⟩

theorem RxStep.inv {s t : State} (next : RxStep s t) (inv : Inv s) : Inv t := by
  cases next with
  | closed => exact inv
  | frame ready session ended next => exact next.inv ended
  | byte wait offered =>
    obtain ⟨rx, receiving⟩ := receiving_byteTaken inv wait offered
    have steady := steady_byteTaken inv.steady offered
    refine inv_of_waitLoop (.inr rx) steady ?_ ?_ ?_ ?_ (.inr ⟨rx, receiving⟩) <;> rw [byteTaken_frame]
    · exact inv.inSend (wait.imp_right .inl)
    · exact inv.session.loopOn (wait.imp_right .inl)
    · exact (inv.closed_of_waiting wait).1
    · exact (inv.closed_of_waiting wait).2

/-- Datagrams that wait do not touch the block, and an empty one does not wait (10_state R103). -/
theorem inv_rxDatagramStep {s : State} (inv : Inv s) (f : Frame) : Inv (rxDatagramStep f s) := by
  unfold rxDatagramStep
  split
  · exact inv
  · rename_i nonempty
    have waiting : ∀ g ∈ s.source.waiting ++ [f], g ≠ [] := by
      intro g mem
      rcases List.mem_append.1 mem with old | new
      · exact inv.rx.nonempty g old
      · exact List.mem_singleton.1 new ▸ nonempty
    exact inv_of_waiting inv waiting rfl

end Sys2Proof.Machine
end

section
/-!
The invariant over ticks and host accesses, and so over every step of the machine: no step from a state of the
invariant stops, and each keeps it.
-/
namespace Sys2Proof.Machine

/-! ### Retransmission rounds and ticks (42_arq_events R610 to R643) -/

theorem inv_roundOpened {k : TxCont} {s : State} (steady : Steady s) (ok : SessionOk s.window s.sess)
    (alive : s.sess.failed = false) (quiet : Quiet s) (outstanding : s.sess.fifo ≠ [])
    (loop : k = .loop → InSend s.window s.sess ∧ loopHolds s = true)
    (finish : k = .finish → s.fifoLen ≤ s.window) : Inv (roundOpened k s) := by
  obtain ⟨⟨-, part⟩, rx, job⟩ := quiet
  obtain ⟨f, later, fifo⟩ := List.exists_cons_of_ne_nil outstanding
  have sound : FrameSound f := ok.sound f (fifo ▸ List.mem_cons_self ..)
  exact inv_of_emitting (.inr rfl) steady ok alive
    ⟨List.suffix_refl _, f, later, fifo, List.length_pos_of_ne_nil (frame_ne_nil sound), part⟩ rx job
    ⟨fun h => by simp [roundOpened] at h, fun h => by simp [roundOpened] at h, fun _ => loop, finish⟩

/-- The answers to a tick: the timers alone, or in WAIT_ACK a round, or the end of a session that gives up. The
state `u` a giveup or a round starts from differs from `s` in its timers and pending bits. -/
inductive TickStep (s : State) : State → Prop
  | counted : TickStep s (tickTimers s)
  | round {u} (wait : s.st = .waitAck) (outstanding : s.sess.fifo ≠ [])
      (same : u = { s with irq := u.irq, timers := u.timers }) : TickStep s (roundOpened .loop u)
  | failed {u} (wait : s.st = .waitAck) (same : u = { s with irq := u.irq, timers := u.timers }) :
      TickStep s (giveupFatal u)
  | dropped {u} (wait : s.st = .waitAck) (same : u = { s with irq := u.irq, timers := u.timers }) :
      TickStep s (giveupDrop u)

theorem tickStep_retransmit {s u : State} (inv : Inv s) (wait : s.st = .waitAck)
    (same : u = { s with irq := u.irq, timers := u.timers }) : TickStep s (retransmit u) := by
  have outstanding : s.sess.fifo ≠ [] := fifo_ne_nil_of_looping inv (.inl wait)
  have sameFifo : u.sess.fifo = s.sess.fifo := by rw [same]
  rw [retransmit_of_fifo_ne_nil (sameFifo ▸ outstanding)]
  refine .round wait outstanding ?_
  rw [same]

theorem tickStep_of_inv {s : State} (inv : Inv s) : TickStep s (tickStep s) := by
  rcases tickStep_spec s with ⟨-, next⟩ | ⟨expired, -, next⟩ | ⟨expired, -, next⟩
  · exact next ▸ .counted
  · have wait : s.st = .waitAck := ((attemptExpired_iff _).1 expired).1
    exact next ▸ tickStep_retransmit inv wait rfl
  · have wait : s.st = .waitAck := ((attemptExpired_iff _).1 expired).1
    rw [next]
    rcases giveUp_spec (tickTimers s) with ⟨-, next⟩ | ⟨-, next⟩ | ⟨-, next⟩
    · exact next ▸ .failed wait rfl
    · exact next ▸ .dropped wait rfl
    · exact next ▸ tickStep_retransmit inv wait rfl

theorem sessionOk_of_empty {w : Nat} {q : Session} (fifo : q.fifo = []) (inFlight : q.inFlight = 0#18) :
    SessionOk w q where
  order := by simp [fifo]
  sound := by simp [fifo]
  flightLow := by simp [inFlight]
  flightHigh := by simp [inFlight]
  bound := by simp [fifo]
  unlocked := fun _ => ⟨fifo, inFlight⟩

theorem inv_giveupFatal {s : State} (inv : Inv s) (wait : s.st = .waitAck) : Inv (giveupFatal s) := by
  have ok := inv.sessionOk
  have locked := (inv.inSend (.inl wait)).locked
  refine inv_complete (by decide) inv.steady ?_ (fun alive => by simp at alive) (inv.quiet (.inr wait))
  exact ⟨ok.order, ok.sound, ok.flightLow, ok.flightHigh, ok.bound, ok.unlocked⟩

theorem inv_giveupDrop {s : State} (inv : Inv s) (wait : s.st = .waitAck) : Inv (giveupDrop s) :=
  inv_complete (by decide) inv.steady (sessionOk_of_empty rfl rfl) (fun _ => Nat.zero_le _) (inv.quiet (.inr wait))

theorem inv_with_irq_timers {s u : State} (inv : Inv s) (same : u = { s with irq := u.irq, timers := u.timers }) :
    Inv u := by
  refine inv_of_unread inv (same.trans ?_)
  rw [same]

theorem TickStep.inv {s t : State} (next : TickStep s t) (inv : Inv s) : Inv t := by
  cases next with
  | counted => exact inv_of_unread inv rfl
  | @round u wait outstanding same =>
    have st : u.st = s.st := by rw [same]
    have fifo : u.sess.fifo = s.sess.fifo := by rw [same]
    have looping : u.looping := .inl (st.trans wait)
    have inv := inv_with_irq_timers inv same
    have send := inv.inSend looping
    exact inv_roundOpened inv.steady inv.sessionOk send.alive (inv.quiet (.inr (st.trans wait)))
      (fifo ▸ outstanding) (fun _ => ⟨send, inv.session.loopOn looping⟩) (fun h => by cases h)
  | @failed u wait same =>
    have st : u.st = s.st := by rw [same]
    exact inv_giveupFatal (inv_with_irq_timers inv same) (st.trans wait)
  | @dropped u wait same =>
    have st : u.st = s.st := by rw [same]
    exact inv_giveupDrop (inv_with_irq_timers inv same) (st.trans wait)

theorem inv_tickStep {s : State} (inv : Inv s) : Inv (tickStep s) := (tickStep_of_inv inv).inv inv

/-! ### Commands (60_exceptions R802, 41_arq_send R501, 40_codec R410) -/

/-- A command in a state of the invariant: an overrun, a refusal with a legal code, or the acceptance. -/
theorem inv_issue {s : State} {refusal : Option ErrCode} {accept : State → State} (inv : Inv s)
    (legal : ∀ c, refusal = some c → c.toNat ≤ 8)
    (accepted : s.st = .idle → refusal = none → Inv (accept s)) : Inv (issue refusal accept s) := by
  by_cases idle : s.st = .idle
  · cases refusal with
    | none =>
      rw [issue_accepted _ _ idle]
      exact accepted idle rfl
    | some code =>
      rw [issue_refused _ _ _ idle]
      exact inv_complete (legal code rfl) inv.steady inv.sessionOk (inv.session.resting (.inl idle))
        (inv.quiet (.inl idle))
  · rw [issue_of_busy _ _ _ idle]
    exact inv_of_unread inv rfl

/-- The checks of R802 answer with a legal code. -/
theorem refusalOf_legal {n : Nat} (h : n ≤ 8) : ∀ c, refusalOf n = some c → c.toNat ≤ 8 := by
  intro c refused
  rw [refusalOf] at refused
  split at refused
  · cases refused
  · cases refused
    rw [BitVec.toNat_ofNat]
    exact (Nat.mod_le n _).trans h

theorem legal_of_sendCheck {len : BitVec 10} {s : State} : ∀ c, sendCheck len s = some c → c.toNat ≤ 8 := by
  rw [sendCheck_eq_refusalOf]
  exact refusalOf_legal (by split_ifs <;> decide)

theorem legal_of_lengthCheck {len : BitVec 10} : ∀ c, lengthCheck len = some c → c.toNat ≤ 8 := by
  rw [lengthCheck_eq_refusalOf]
  exact refusalOf_legal (by split_ifs <;> decide)

theorem legal_of_failedCheck {s : State} : ∀ c, failedCheck s = some c → c.toNat ≤ 8 := by
  rw [failedCheck_eq_refusalOf]
  exact refusalOf_legal (by split_ifs <;> decide)

theorem legal_of_malformedCheck {s : State} : ∀ c, malformedCheck s = some c → c.toNat ≤ 8 := by
  rw [malformedCheck_eq_refusalOf]
  exact refusalOf_legal (by split_ifs <;> decide)

/-- An accepted SEND goes on from what it loads (41_arq_send R501, R502). -/
theorem sendStep_acceptSend {flag : PacketFlag} {len : BitVec 10} {s : State} (inv : Inv s) (idle : s.st = .idle)
    (passes : sendCheck len s = none) : SendStep (loadSend flag len s) (acceptSend flag len s) := by
  obtain ⟨legal, alive⟩ := (sendCheck_eq_none_iff len s).1 passes
  have room : s.fifoLen ≤ s.window := inv.session.resting (.inl idle) alive
  exact sendStep_firstPush (inSend_loadSend (s := s) inv idle legal alive) inv.window_pos
    (unsent_loadSend legal (room.trans (window_le_of_inv inv)))

theorem inv_acceptSend {flag : PacketFlag} {len : BitVec 10} {s : State} (inv : Inv s) (idle : s.st = .idle)
    (passes : sendCheck len s = none) : Inv (acceptSend flag len s) := by
  obtain ⟨legal, alive⟩ := (sendCheck_eq_none_iff len s).1 passes
  obtain ⟨-, config, memory, waiting⟩ := inv.steady
  exact (sendStep_acceptSend inv idle passes).inv ⟨Nat.zero_le _, config, memory, waiting⟩
    (inSend_loadSend (s := s) inv idle legal alive) (inv.quiet (.inl idle))

/-- SENDALL opens a round, or ends at once where the FIFO is empty (41_arq_send R540). -/
theorem acceptSendall_spec (s : State) :
    (s.sess.fifo ≠ [] ∧ acceptSendall s = roundOpened .finish { s with err := errOk })
    ∨ (s.sess.fifo = [] ∧ acceptSendall s = complete errOk (roundOpened .finish { s with err := errOk })) := by
  rcases startRound_spec .finish { s with err := errOk } with ⟨outstanding, next⟩ | ⟨empty, next⟩
  · exact .inl ⟨outstanding, next⟩
  · exact .inr ⟨empty, next.trans (continueAfterTx_of_finish _ rfl)⟩

theorem inv_acceptSendall {s : State} (inv : Inv s) (idle : s.st = .idle) (passes : failedCheck s = none) :
    Inv (acceptSendall s) := by
  have alive := (failedCheck_eq_none_iff s).1 passes
  have room : s.fifoLen ≤ s.window := inv.session.resting (.inl idle) alive
  obtain ⟨-, config, memory, waiting⟩ := inv.steady
  obtain ⟨⟨queue, part⟩, rx, job⟩ := inv.quiet (.inl idle)
  rcases acceptSendall_spec s with ⟨outstanding, next⟩ | ⟨empty, next⟩ <;> rw [next]
  · exact inv_roundOpened (s := { s with err := errOk }) ⟨Nat.zero_le _, config, memory, waiting⟩ inv.sessionOk alive
      ⟨⟨queue, part⟩, rx, job⟩ outstanding (fun h => by cases h) (fun _ => room)
  · exact inv_complete (by decide) ⟨Nat.zero_le _, config, memory, waiting⟩ inv.sessionOk (fun _ => room)
      ⟨⟨empty, part⟩, rx, job⟩

theorem inv_acceptEncode {flag : PacketFlag} {len : BitVec 10} {seq : Seq} {s : State} (inv : Inv s)
    (idle : s.st = .idle) (passes : lengthCheck len = none) : Inv (acceptEncode flag len seq s) := by
  obtain ⟨-, config, memory, waiting⟩ := inv.steady
  obtain ⟨tx, rx, -⟩ := inv.quiet (.inl idle)
  refine inv_of_codec rfl ⟨Nat.zero_le _, config, memory, waiting⟩ inv.sessionOk (inv.session.resting (.inl idle))
    tx rx (Option.some_ne_none _) fun f job => ?_
  cases job
  exact frameSound_payload seq flag s ((lengthCheck_eq_none_iff len).1 passes)

theorem inv_acceptDecode {s : State} (inv : Inv s) (idle : s.st = .idle) : Inv (acceptDecode s) := by
  obtain ⟨-, config, memory, waiting⟩ := inv.steady
  obtain ⟨tx, rx, -⟩ := inv.quiet (.inl idle)
  refine inv_of_codec rfl ⟨Nat.zero_le _, config, memory, waiting⟩ inv.sessionOk (inv.session.resting (.inl idle))
    tx rx (Option.some_ne_none _) fun f job => ?_
  cases job

/-- What a command word can be issued as: the checks in front, and the acceptance behind them. -/
inductive IssueStep (s : State) : State → Prop
  | refused (code : ErrCode) (legal : code.toNat ≤ 8) : IssueStep s (issue (some code) id s)
  | encode (flag : PacketFlag) (len : BitVec 10) (seq : Seq) :
      IssueStep s (issue (lengthCheck len) (acceptEncode flag len seq) s)
  | decode : IssueStep s (issue (malformedCheck s) acceptDecode s)
  | send (flag : PacketFlag) (len : BitVec 10) : IssueStep s (issue (sendCheck len s) (acceptSend flag len) s)
  | sendall : IssueStep s (issue (failedCheck s) acceptSendall s)

theorem issueStep_exec (i : Instr) (s : State) : ∃ t, exec i s = .next t ∧ IssueStep s t := by
  cases i with
  | encode flag len seq =>
    simp only [exec, execEncode]
    cases PacketFlag.ofField? flag with
    | none => exact ⟨_, rfl, .refused errFlag (by decide)⟩
    | some f => exact ⟨_, rfl, .encode f len seq⟩
  | decode => exact ⟨_, rfl, .decode⟩
  | sendFirst len => exact ⟨_, rfl, .send .first len⟩
  | sendMiddle len => exact ⟨_, rfl, .send .middle len⟩
  | sendLast len => exact ⟨_, rfl, .send .last len⟩
  | sendall => exact ⟨_, rfl, .sendall⟩

theorem issueStep_writeCmd (w : Word) (s : State) : ∃ t, writeCmd w s = .next t ∧ IssueStep s t := by
  cases decoded : decodeWord w with
  | command i =>
    rw [writeCmd_of_command decoded]
    exact issueStep_exec i s
  | rejected why =>
    rw [writeCmd_of_rejected decoded]
    exact ⟨_, rfl, .refused (rejectCode why) (by cases why <;> decide)⟩

theorem IssueStep.inv {s t : State} (next : IssueStep s t) (inv : Inv s) : Inv t := by
  cases next with
  | refused code legal => exact inv_issue inv (fun c h => by cases h; exact legal) (fun _ h => by cases h)
  | encode flag len seq => exact inv_issue inv legal_of_lengthCheck fun idle passes => inv_acceptEncode inv idle passes
  | decode => exact inv_issue inv legal_of_malformedCheck fun idle _ => inv_acceptDecode inv idle
  | send flag len => exact inv_issue inv legal_of_sendCheck fun idle passes => inv_acceptSend inv idle passes
  | sendall => exact inv_issue inv legal_of_failedCheck fun idle passes => inv_acceptSendall inv idle passes

/-! ### The other writes of the host (43_host_bus R702, R705) -/

/-- A configuration written while idle keeps the session sound where it keeps the window, or where the session is
not yet locked and so is empty (10_state R116). -/
theorem inv_with_cfg {s : State} {g : ConfigRegs} (inv : Inv s) (idle : s.st = .idle) (config : ConfigOk g)
    (window : g.windowSize = s.cfg.windowSize ∨ s.sess.cfgLocked = false) : Inv { s with cfg := g } := by
  obtain ⟨err, -, memory, waiting⟩ := inv.steady
  rcases window with same | unlocked
  · have ok : SessionOk g.windowSize.toNat s.sess := same ▸ inv.sessionOk
    have rested : s.sess.failed = false → s.fifoLen ≤ g.windowSize.toNat :=
      same ▸ inv.session.resting (.inl idle)
    exact inv_of_idle idle ⟨err, config, memory, waiting⟩ ok rested (inv.quiet (.inl idle))
  · obtain ⟨fifo, inFlight⟩ := inv.session.unlocked unlocked
    have rested : s.fifoLen ≤ g.windowSize.toNat := by rw [State.fifoLen, fifo]; exact Nat.zero_le _
    exact inv_of_idle idle ⟨err, config, memory, waiting⟩ (sessionOk_of_empty fifo inFlight) (fun _ => rested)
      (inv.quiet (.inl idle))

theorem inv_ignoreWrite {s : State} (inv : Inv s) : Inv (ignoreWrite s) := inv_of_unread inv rfl

theorem inv_writeReg {s : State} (inv : Inv s) (r : Reg) (v : Word) : Inv (writeReg r v s) := by
  by_cases ignored : writeIgnored (.reg r) v s
  · exact writeReg_of_ignored ignored ▸ inv_ignoreWrite inv
  · have config := (configLegal_iff s).1 inv.config
    obtain ⟨wmaxLow, wmaxHigh, windowLow, windowHigh, ackWaitLow⟩ := config
    have field : (v.extractLsb' 0 16).toNat = v.toNat % 65536 := BitVec.extractLsb'_toNat ..
    cases r with
    | ctrl =>
      obtain ⟨-, p, -, written⟩ := (writeCtrl_spec v s).resolve_left fun h => ignored h.1
      have idle : s.st = .idle := (busy_eq_false_iff s).1 (Bool.eq_false_iff.2 fun busy => ignored (.inl busy))
      rw [writeReg, written]
      exact inv_with_cfg inv idle ⟨wmaxLow, wmaxHigh, windowLow, windowHigh, ackWaitLow⟩ (.inl rfl)
    | windowSize =>
      have written := ((writeWindowSize_spec v s).resolve_left fun h => ignored h.1).2
      obtain ⟨busy, locked, low, high⟩ :
          ¬ s.busy = true ∧ ¬ s.sess.cfgLocked = true ∧ ¬ v.toNat % 65536 = 0 ∧
            ¬ s.cfg.wmax.toNat < v.toNat % 65536 := by
        simpa only [writeIgnored, not_or] using ignored
      rw [writeReg, written]
      exact inv_with_cfg inv ((busy_eq_false_iff s).1 (Bool.eq_false_iff.2 busy))
        ⟨wmaxLow, wmaxHigh, by simp only [field]; omega, by simp only [field]; omega, ackWaitLow⟩
        (.inr (Bool.eq_false_iff.2 locked))
    | ackWait =>
      have written := ((writeAckWait_spec v s).resolve_left fun h => ignored h.1).2
      obtain ⟨busy, low⟩ : ¬ s.busy = true ∧ ¬ v.toNat % 65536 = 0 := by
        simpa only [writeIgnored, not_or] using ignored
      rw [writeReg, written]
      exact inv_with_cfg inv ((busy_eq_false_iff s).1 (Bool.eq_false_iff.2 busy))
        ⟨wmaxLow, wmaxHigh, windowLow, windowHigh, by simp only [field]; omega⟩ (.inl rfl)
    | giveup =>
      have busy : ¬ s.busy = true := ignored
      rw [writeReg, writeGiveup, if_neg busy]
      exact inv_with_cfg inv ((busy_eq_false_iff s).1 (Bool.eq_false_iff.2 busy))
        ⟨wmaxLow, wmaxHigh, windowLow, windowHigh, ackWaitLow⟩ (.inl rfl)
    | cbufLen =>
      have busy : ¬ s.busy = true := ignored
      have idle := (busy_eq_false_iff s).1 (Bool.eq_false_iff.2 busy)
      rw [writeReg, writeCbufLen, if_neg busy]
      exact inv_of_idle idle inv.steady inv.sessionOk (inv.session.resting (.inl idle)) (inv.quiet (.inl idle))
    | irqEnable | irqPending => exact inv_of_unread inv rfl
    | _ => exact inv

theorem inv_writeBuffer {s : State} (inv : Inv s) (a : Nat) (v : Word) : Inv (writeBuffer a v s) := by
  rcases writeBuffer_spec a v s with ⟨-, written⟩ | ⟨idle, written⟩ <;> rw [written]
  · exact inv_ignoreWrite inv
  · obtain ⟨err, config, memory, waiting⟩ := inv.steady
    exact inv_of_idle idle ⟨err, config, Memory.wf_storeWord memory a v, waiting⟩ inv.sessionOk
      (inv.session.resting (.inl idle)) (inv.quiet (.inl idle))

/-- What a host write can do: a command, a register, a buffer word, or nothing. -/
inductive WriteStep (s : State) : State → Prop
  | command {t} (next : IssueStep s t) : WriteStep s t
  | reg (r : Reg) (v : Word) : WriteStep s (writeReg r v s)
  | buffer (a : Nat) (v : Word) : WriteStep s (writeBuffer a v s)
  | inert : WriteStep s s

theorem writeStep_hostWrite (a : BitVec 12) (v : Word) (s : State) :
    ∃ t, hostWrite a v s = .next t ∧ WriteStep s t := by
  cases selected : target a with
  | reg r =>
    by_cases cmd : r = .cmd
    · subst cmd
      obtain ⟨t, written, next⟩ := issueStep_writeCmd v s
      exact ⟨t, (hostWrite_of_cmd selected v s).trans written, .command next⟩
    · exact ⟨_, hostWrite_of_reg selected cmd v s, .reg r v⟩
  | txbuf k => exact ⟨_, by simp only [hostWrite, selected], .buffer (txbufWordAddr k) v⟩
  | cbuf k => exact ⟨_, by simp only [hostWrite, selected], .buffer (cbufWordAddr k) v⟩
  | reserved => exact ⟨s, hostWrite_of_reserved selected v s, .inert⟩

theorem WriteStep.inv {s t : State} (next : WriteStep s t) (inv : Inv s) : Inv t := by
  cases next with
  | command next => exact next.inv inv
  | reg r v => exact inv_writeReg inv r v
  | buffer a v => exact inv_writeBuffer inv a v
  | inert => exact inv

/-- What a host access can do: a read, or a write with `hb_rdata` as it was or free. -/
inductive HostStep (s : State) : State → Prop
  | read (a : BitVec 12) : HostStep s (hostRead a s)
  | write {t} (next : WriteStep s t) : HostStep s t
  | readWrite {t} (next : WriteStep s t) : HostStep s (freeRdata t)

theorem hostStep_hostAccess (h : HostAccess) (s : State) : ∃ t, hostAccess h s = .next t ∧ HostStep s t := by
  cases h with
  | read a => exact ⟨_, rfl, .read a⟩
  | write a v =>
    obtain ⟨t, written, next⟩ := writeStep_hostWrite a v s
    exact ⟨t, written, .write next⟩
  | readWrite a v =>
    obtain ⟨t, written, next⟩ := writeStep_hostWrite a v s
    exact ⟨freeRdata t, by rw [hostAccess, written, andThen_next], .readWrite next⟩

theorem HostStep.inv {s t : State} (next : HostStep s t) (inv : Inv s) : Inv t := by
  cases next with
  | read a => exact inv_of_unread inv rfl
  | write next => exact next.inv inv
  | readWrite next => exact inv_of_unread (next.inv inv) rfl

/-! ### Every event -/

/-- The host's part of a cycle, where there is one. -/
theorem hostStep_cycleHost (access : Option HostAccess) (s : State) :
    ∃ t, cycleHost access s = .next t ∧ (t = s ∨ HostStep s t) := by
  cases access with
  | none => exact ⟨s, rfl, .inl rfl⟩
  | some h =>
    obtain ⟨t, accessed, next⟩ := hostStep_hostAccess h s
    exact ⟨t, accessed, .inr next⟩

/-- The steps the sequencer can take in a cycle (log entry 12). -/
theorem cycleSequencer_cases (st0 : SeqState) (c : Cycle) (s : State) :
    cycleSequencer st0 c s = s ∨ cycleSequencer st0 c s = codecStep s ∨ cycleSequencer st0 c s = txByteStep s
      ∨ cycleSequencer st0 c s = rxByteStep s := by
  unfold cycleSequencer
  cases st0 with
  | codec | tx | retx | waitAck | rx => dsimp only; split_ifs <;> simp
  | idle | code6 | code7 => exact .inl rfl

theorem inv_cycleSequencer {s : State} (inv : Inv s) (st0 : SeqState) (c : Cycle) : Inv (cycleSequencer st0 c s) := by
  rcases cycleSequencer_cases st0 c s with next | next | next | next <;> rw [next]
  · exact inv
  · exact inv_codecStep inv
  · exact (txStep_txByteStep inv).inv inv
  · exact (rxStep_rxByteStep inv).inv inv

/-- A cycle without a reset: the host's part, the sequencer's, and the tick (60_exceptions R823). -/
theorem cycleStep_of_not_rst {c : Cycle} (rst : c.rst = false) (s : State) :
    ∃ t, cycleHost c.host s = .next t ∧ (t = s ∨ HostStep s t)
      ∧ cycleStep c s = .next (if c.tick then tickStep (cycleSequencer s.st c t) else cycleSequencer s.st c t) := by
  obtain ⟨t, accessed, next⟩ := hostStep_cycleHost c.host s
  refine ⟨t, accessed, next, ?_⟩
  simp only [cycleStep, rst, Bool.false_eq_true, if_false, accessed, andThen_next]

theorem inv_cycleStep {s : State} (inv : Inv s) (c : Cycle) : ∃ t, cycleStep c s = .next t ∧ Inv t := by
  cases rst : c.rst with
  | true => exact ⟨resetBlock s, if_pos rst, inv_resetBlock inv⟩
  | false =>
    obtain ⟨t, -, next, answers⟩ := cycleStep_of_not_rst rst s
    have accessed : Inv t := next.elim (fun same => same ▸ inv) fun next => next.inv inv
    have sequenced := inv_cycleSequencer accessed s.st c
    refine ⟨_, answers, ?_⟩
    split
    · exact inv_tickStep sequenced
    · exact sequenced

theorem inv_eventEffect {s : State} (inv : Inv s) (e : Event) : ∃ t, eventEffect e s = .next t ∧ Inv t := by
  cases e with
  | reset => exact ⟨_, rfl, inv_resetBlock inv⟩
  | host h =>
    obtain ⟨t, accessed, next⟩ := hostStep_hostAccess h s
    exact ⟨t, accessed, next.inv inv⟩
  | codecDone => exact ⟨_, rfl, inv_codecStep inv⟩
  | txByte => exact ⟨_, rfl, (txStep_txByteStep inv).inv inv⟩
  | txFrame => exact ⟨_, rfl, (txStep_txFrameStep inv).inv inv⟩
  | rxDatagram f => exact ⟨_, rfl, inv_rxDatagramStep inv f⟩
  | rxByte => exact ⟨_, rfl, (rxStep_rxByteStep inv).inv inv⟩
  | rxFrame => exact ⟨_, rfl, (rxStep_rxFrameStep inv).inv inv⟩
  | tick => exact ⟨_, rfl, inv_tickStep inv⟩
  | cycle c => exact inv_cycleStep inv c

/-- Every step from a state of the invariant is answered by a state of the invariant. -/
theorem inv_step {s : State} (inv : Inv s) : ∃ t, step s = .next t ∧ Inv t := by
  cases next : s.inputs with
  | nil =>
    have legal : s.illegal? = none := inv.codes
    refine ⟨codecStep s, ?_, inv_codecStep inv⟩
    rw [step_alone s next, runAlone, legal]
  | cons e rest =>
    rw [step_of_facing ⟨next, inv.codes⟩]
    exact inv_eventEffect (inv_popped inv rest) e

/-- Settles O54: a step answers the one state of the invariant that `inv_step` gives. -/
theorem everyStepKeepsTheInvariant : Obligations.EveryStepKeepsTheInvariant := by
  intro s t inv answers
  obtain ⟨u, next, kept⟩ := inv_step inv
  cases answers.symm.trans next
  exact kept

/-- Settles O55. -/
theorem invariantStatesNeverStop : Obligations.InvariantStatesNeverStop := fun _ inv =>
  (inv_step inv).imp fun _ next => next.1

end Sys2Proof.Machine
end

section
/-!
What a step does to the outstanding FIFO and to `ST` (10_state R118, R120, R130), read off the answers a step can
give; and what a host access can do to a busy block (20_memory R237).
-/
namespace Sys2Proof.Machine

/-! ### Host accesses to a busy block -/

theorem writeReg_of_busy {s : State} (busy : s.st ≠ .idle) (r : Reg) (v : Word) :
    writeReg r v s = { s with irq := (writeReg r v s).irq } := by
  have isBusy := (busy_eq_true_iff s).2 busy
  by_cases ignored : writeIgnored (.reg r) v s
  · rw [writeReg_of_ignored ignored]
    rfl
  · cases r with
    | ctrl | windowSize | ackWait => exact absurd (.inl isBusy) ignored
    | giveup | cbufLen => exact absurd isBusy ignored
    | _ => rfl

theorem writeBuffer_frame (a : Nat) (v : Word) (s : State) :
    writeBuffer a v s = { s with irq := (writeBuffer a v s).irq, mem := (writeBuffer a v s).mem } := by
  rcases writeBuffer_spec a v s with ⟨-, written⟩ | ⟨-, written⟩
  · rw [written]
    rfl
  · rw [written]

theorem WriteStep.of_busy {s t : State} (next : WriteStep s t) (busy : s.st ≠ .idle) :
    t = { s with irq := t.irq } := by
  cases next with
  | command next => cases next <;> rw [issue_of_busy _ _ _ busy] <;> rfl
  | reg r v => exact writeReg_of_busy busy r v
  | buffer a v =>
    rcases writeBuffer_spec a v s with ⟨-, written⟩ | ⟨idle, -⟩
    · rw [written]
      rfl
    · exact absurd idle busy
  | inert => rfl

/-- A host access to a busy block leaves all but the interrupt registers, `hb_rdata` and the count of free values. -/
theorem HostStep.of_busy {s t : State} (next : HostStep s t) (busy : s.st ≠ .idle) :
    t = { s with irq := t.irq, rdata := t.rdata, freeCount := t.freeCount } := by
  cases next with
  | read a => rfl
  | write next =>
    have frame := next.of_busy busy
    rw [frame]
  | @readWrite u next =>
    have frame := next.of_busy busy
    rw [frame]
    rfl

/-- Settles O48. -/
theorem hostCannotDisturbABusyBlock : Obligations.HostCannotDisturbABusyBlock := by
  intro s h rest facing busy
  obtain ⟨t, accessed, next⟩ := hostStep_hostAccess h (s.popped rest)
  refine ⟨t.irq, t.rdata, t.freeCount, ?_⟩
  rw [← next.of_busy ((busy_eq_true_iff s).1 busy)]
  exact (step_of_facing facing).trans accessed

/-! ### The FIFO as a queue -/

/-- Some frames leave at the head, and at most one enters at the tail, with the number `NEXT_SEQ` (10_state R130). -/
def QueueMove (q q' : Session) : Prop :=
  ∃ (k : Nat) (new : List Frame), q'.fifo = q.fifo.drop k ++ new
    ∧ q'.nextSeq = q.nextSeq + BitVec.ofNat 16 new.length
    ∧ (new = [] ∨ ∃ f, new = [f] ∧ frameSeq f = q.nextSeq)

/-- Neither the FIFO nor `NEXT_SEQ` changes. -/
def SameQueue (q q' : Session) : Prop := q'.fifo = q.fifo ∧ q'.nextSeq = q.nextSeq

/-- A DROP giveup has put a fresh session in place (42_arq_events R642). -/
def Restarted (t : State) : Prop := t.sess.fifo = [] ∧ t.sess.nextSeq = 0#16 ∧ t.err = 8#4

theorem queueMove_of_drop {q q' : Session} {k : Nat} (fifo : q'.fifo = q.fifo.drop k)
    (nextSeq : q'.nextSeq = q.nextSeq) : QueueMove q q' :=
  ⟨k, [], by simp [fifo], by simp [nextSeq], .inl rfl⟩

theorem SameQueue.queueMove {q q' : Session} (same : SameQueue q q') : QueueMove q q' :=
  queueMove_of_drop (k := 0) same.1 same.2

theorem queueMove_of_eq {q q' : Session} (same : q' = q) : QueueMove q q' :=
  SameQueue.queueMove ⟨by rw [same], by rw [same]⟩

theorem QueueMove.trans_same {q q' q'' : Session} (move : QueueMove q q') (same : SameQueue q' q'') :
    QueueMove q q'' := by
  obtain ⟨k, new, fifo, nextSeq, tail⟩ := move
  exact ⟨k, new, same.1.trans fifo, same.2.trans nextSeq, tail⟩

/-- The push of a packet not yet sent, behind what an ACK has left of the FIFO of `q`. -/
theorem queueMove_push {q : Session} {s : State} {n : Nat} {k : TxCont} (fifo : s.sess.fifo = q.fifo.drop n)
    (nextSeq : s.sess.nextSeq = q.nextSeq) (unsent : Unsent s.sess) :
    QueueMove q (push s.sess.pending k s).sess :=
  ⟨n, [s.sess.pending], by rw [push_sess_fifo, fifo], by rw [push_sess_nextSeq, nextSeq]; rfl,
    .inr ⟨_, rfl, unsent.pendingSeq.trans nextSeq⟩⟩

theorem SendStep.queueMove {q : Session} {s t : State} {n : Nat} (next : SendStep s t)
    (fifo : s.sess.fifo = q.fifo.drop n) (nextSeq : s.sess.nextSeq = q.nextSeq) : QueueMove q t.sess := by
  cases next with
  | attempt holds => exact queueMove_of_drop fifo nextSeq
  | done room => exact queueMove_of_drop fifo nextSeq
  | pushLast unsent last => exact queueMove_push fifo nextSeq unsent
  | pushData unsent room => exact queueMove_push fifo nextSeq unsent

theorem EmissionStep.sess {s t : State} {k : TxSink} {later : List Frame} (next : EmissionStep s k later t) :
    t.sess = s.sess := by
  cases next <;> rfl

theorem TxStep.sess {s t : State} (next : TxStep s t) : t.sess = s.sess := by
  cases next with
  | closed => rfl
  | byte emitting queue offered notLast => rfl
  | frame emitting queue part next => exact next.sess

theorem FrameEndStep.queueMove {s t : State} (next : FrameEndStep s t) : QueueMove s.sess t.sess := by
  cases next with
  | dropped c => exact queueMove_of_eq rfl
  | acked c next => exact next.queueMove rfl rfl

theorem RxStep.queueMove {s t : State} (next : RxStep s t) : QueueMove s.sess t.sess := by
  cases next with
  | closed => exact queueMove_of_eq rfl
  | byte wait offered => exact queueMove_of_eq (by rw [byteTaken_frame])
  | frame ready session ended next => exact session ▸ next.queueMove

theorem TickStep.sameQueue_or_restarted {s t : State} (next : TickStep s t) :
    SameQueue s.sess t.sess ∨ Restarted t := by
  cases next with
  | counted => exact .inl ⟨rfl, rfl⟩
  | round wait outstanding same => rw [same]; exact .inl ⟨rfl, rfl⟩
  | failed wait same => rw [same]; exact .inl ⟨rfl, rfl⟩
  | dropped wait same => exact .inr ⟨rfl, rfl, rfl⟩

theorem codecStep_sess (s : State) : (codecStep s).sess = s.sess := by
  by_cases codec : s.st = .codec
  · rw [codecStep, if_pos codec, writeCodecResults_frame]
    rfl
  · rw [codecStep_of_not_codec s codec]

theorem queueMove_issue {s : State} {refusal : Option ErrCode} {accept : State → State}
    (accepted : s.st = .idle → refusal = none → QueueMove s.sess (accept s).sess) :
    QueueMove s.sess (issue refusal accept s).sess := by
  by_cases idle : s.st = .idle
  · cases refusal with
    | none =>
      rw [issue_accepted _ _ idle]
      exact accepted idle rfl
    | some code =>
      rw [issue_refused _ _ _ idle]
      exact queueMove_of_eq rfl
  · rw [issue_of_busy _ _ _ idle]
    exact queueMove_of_eq rfl

theorem acceptSendall_sess (s : State) : (acceptSendall s).sess = s.sess := by
  rcases acceptSendall_spec s with ⟨-, next⟩ | ⟨-, next⟩ <;> rw [next] <;> rfl

theorem IssueStep.queueMove {s t : State} (next : IssueStep s t) (inv : Inv s) : QueueMove s.sess t.sess := by
  cases next with
  | refused code legal => exact queueMove_issue fun _ h => by cases h
  | encode flag len seq => exact queueMove_issue fun _ _ => queueMove_of_eq rfl
  | decode => exact queueMove_issue fun _ _ => queueMove_of_eq rfl
  | send flag len =>
    exact queueMove_issue fun idle passes => (sendStep_acceptSend inv idle passes).queueMove (n := 0) rfl rfl
  | sendall => exact queueMove_issue fun _ _ => queueMove_of_eq (acceptSendall_sess s)

theorem WriteStep.queueMove {s t : State} (next : WriteStep s t) (inv : Inv s) : QueueMove s.sess t.sess := by
  cases next with
  | command next => exact next.queueMove inv
  | reg r v => exact queueMove_of_eq (by rw [writeReg_frame])
  | buffer a v => exact queueMove_of_eq (by rw [writeBuffer_frame])
  | inert => exact queueMove_of_eq rfl

theorem HostStep.queueMove {s t : State} (next : HostStep s t) (inv : Inv s) : QueueMove s.sess t.sess := by
  cases next with
  | read a => exact queueMove_of_eq rfl
  | write next => exact next.queueMove inv
  | readWrite next => exact next.queueMove inv

theorem queueMove_cycleSequencer {s : State} (inv : Inv s) (st0 : SeqState) (c : Cycle) :
    QueueMove s.sess (cycleSequencer st0 c s).sess := by
  rcases cycleSequencer_cases st0 c s with next | next | next | next <;> rw [next]
  · exact queueMove_of_eq rfl
  · exact queueMove_of_eq (codecStep_sess s)
  · exact queueMove_of_eq (txStep_txByteStep inv).sess
  · exact (rxStep_rxByteStep inv).queueMove

/-- Before its tick a cycle moves the queue once: a block that is idle at its start takes no step of its own, and the
host does not touch the session of a busy one. -/
theorem queueMove_cycle {s t : State} {c : Cycle} (inv : Inv s) (accessed : t = s ∨ HostStep s t) :
    QueueMove s.sess (cycleSequencer s.st c t).sess := by
  rcases accessed with rfl | next
  · exact queueMove_cycleSequencer inv _ c
  · by_cases idle : s.st = .idle
    · rw [idle]
      exact next.queueMove inv
    · have sess : t.sess = s.sess := by rw [next.of_busy idle]
      exact sess ▸ queueMove_cycleSequencer (next.inv inv) s.st c

theorem queue_of_cycle {s t : State} {c : Cycle} (inv : Inv s) (rst : c.rst = false)
    (answers : cycleStep c s = .next t) : QueueMove s.sess t.sess ∨ Restarted t := by
  obtain ⟨u, -, accessed, next⟩ := cycleStep_of_not_rst rst s
  have move := queueMove_cycle (c := c) inv accessed
  have inv_u : Inv u := accessed.elim (fun same => same ▸ inv) fun next => next.inv inv
  cases answers.symm.trans next
  split
  · have tick := tickStep_of_inv (inv_cycleSequencer inv_u s.st c)
    exact tick.sameQueue_or_restarted.imp_left move.trans_same
  · exact .inl move

theorem queue_of_event {s t : State} {e : Event} (inv : Inv s) (noReset : e.isReset = false)
    (answers : eventEffect e s = .next t) : QueueMove s.sess t.sess ∨ Restarted t := by
  cases e with
  | reset => cases noReset
  | host h =>
    obtain ⟨u, accessed, next⟩ := hostStep_hostAccess h s
    cases answers.symm.trans accessed
    exact .inl (next.queueMove inv)
  | codecDone => cases answers; exact .inl (queueMove_of_eq (codecStep_sess s))
  | txByte => cases answers; exact .inl (queueMove_of_eq (txStep_txByteStep inv).sess)
  | txFrame => cases answers; exact .inl (queueMove_of_eq (txStep_txFrameStep inv).sess)
  | rxDatagram f =>
    cases answers
    refine .inl (queueMove_of_eq ?_)
    rw [rxDatagramStep]
    split <;> rfl
  | rxByte => cases answers; exact .inl (rxStep_rxByteStep inv).queueMove
  | rxFrame => cases answers; exact .inl (rxStep_rxFrameStep inv).queueMove
  | tick => cases answers; exact (tickStep_of_inv inv).sameQueue_or_restarted.imp_left SameQueue.queueMove
  | cycle c => exact queue_of_cycle inv noReset answers

/-- Settles O60: one event on the state without it moves the queue once, or is a DROP giveup. -/
theorem fifoIsAQueueNumberedByNextSeq : Obligations.FifoIsAQueueNumberedByNextSeq := by
  intro s t e rest inv next noReset answers
  rw [step_of_facing ⟨next, inv.codes⟩] at answers
  exact queue_of_event (s := s.popped rest) (inv_popped inv rest) noReset answers

/-! ### The transitions of `ST` -/

/-- `ST` stays, or moves along a row of the table of 10_state R118. -/
def StMove (s t : State) : Prop := t.st = s.st ∨ t.st ∈ stMoves s.st

theorem SendStep.st {s t : State} (next : SendStep s t) : t.st = .waitAck ∨ t.st = .idle ∨ t.st = .tx := by
  cases next with
  | attempt holds => exact .inl rfl
  | done room => exact .inr (.inl rfl)
  | pushLast unsent last => exact .inr (.inr rfl)
  | pushData unsent room => exact .inr (.inr rfl)

theorem stMove_issue {s : State} {refusal : Option ErrCode} {accept : State → State}
    (accepted : s.st = .idle → refusal = none → (accept s).st ∈ stMoves .idle) :
    StMove s (issue refusal accept s) := by
  by_cases idle : s.st = .idle
  · cases refusal with
    | none =>
      rw [issue_accepted _ _ idle]
      exact .inr (idle ▸ accepted idle rfl)
    | some code =>
      rw [issue_refused _ _ _ idle]
      exact .inl idle.symm
  · rw [issue_of_busy _ _ _ idle]
    exact .inl rfl

theorem IssueStep.stMove {s t : State} (next : IssueStep s t) (inv : Inv s) : StMove s t := by
  cases next with
  | refused code legal => exact stMove_issue fun _ h => by cases h
  | encode flag len seq => exact stMove_issue fun _ _ => by simp [stMoves]
  | decode => exact stMove_issue fun _ _ => by simp [stMoves]
  | send flag len =>
    refine stMove_issue fun idle passes => ?_
    rcases (sendStep_acceptSend (flag := flag) inv idle passes).st with h | h | h <;> simp [h, stMoves]
  | sendall =>
    refine stMove_issue fun _ _ => ?_
    rcases acceptSendall_spec s with ⟨-, next⟩ | ⟨-, next⟩ <;> simp [next, roundOpened, stMoves]

theorem WriteStep.stMove {s t : State} (next : WriteStep s t) (inv : Inv s) : StMove s t := by
  cases next with
  | command next => exact next.stMove inv
  | reg r v => exact .inl (by rw [writeReg_frame])
  | buffer a v => exact .inl (by rw [writeBuffer_frame])
  | inert => exact .inl rfl

theorem HostStep.stMove {s t : State} (next : HostStep s t) (inv : Inv s) : StMove s t := by
  cases next with
  | read a => exact .inl rfl
  | write next => exact next.stMove inv
  | readWrite next => exact next.stMove inv

theorem stMove_codecStep (s : State) : StMove s (codecStep s) := by
  by_cases codec : s.st = .codec
  · rw [codecStep, if_pos codec]
    exact .inr (by simp [codec, stMoves])
  · rw [codecStep_of_not_codec s codec]
    exact .inl rfl

theorem TxStep.stMove {s t : State} (next : TxStep s t) : StMove s t := by
  cases next with
  | closed => exact .inl rfl
  | byte emitting queue offered notLast => exact .inl rfl
  | frame emitting queue part next =>
    have states := (emitting_eq_true_iff s).1 emitting
    cases next with
    | more left => exact .inl rfl
    | attempt none loop send holds => exact .inr (by rcases states with h | h <;> simp [h, stMoves])
    | done none ends room => exact .inr (by rcases states with h | h <;> simp [h, stMoves])

theorem FrameEndStep.st {s t : State} (next : FrameEndStep s t) : t.st = .waitAck ∨ t.st = .idle ∨ t.st = .tx := by
  cases next with
  | dropped c => exact .inl rfl
  | acked c next => exact next.st

/-- A frame whose one byte comes in WAIT_ACK is malformed, so the wait goes on (42_arq_events R603). -/
theorem rxByteStep_st_of_waitAck {s : State} (wait : s.st = .waitAck) :
    (rxByteStep s).st = .waitAck ∨ (rxByteStep s).st = .rx := by
  unfold rxByteStep
  split
  · split
    · exact .inl wait
    · rename_i x isLast source offered
      have opened : openRxFrame { s with source := source }
          = { s with source := source, st := .rx, rxr := { s.rxr with active := true, len := 0, sum := 0#8 } } :=
        if_pos wait
      rw [receiveByte_with_source]
      cases isLast with
      | false => exact .inr (by simp [State.byteTaken, opened])
      | true =>
        have len : (s.byteTaken x source).rxr.len = 1 := by simp [State.byteTaken, opened, RxRegs.take]
        rcases endRxFrame_spec (s.byteTaken x source) with ⟨-, next⟩ | ⟨long, -⟩ | ⟨long, -⟩
        · exact .inl (by rw [if_pos rfl, next, startAttempt_st])
        · omega
        · omega
  · exact .inl wait

theorem stMove_rxByteStep {s : State} (inv : Inv s) : StMove s (rxByteStep s) := by
  by_cases wait : s.st = .waitAck
  · rcases rxByteStep_st_of_waitAck wait with h | h
    · exact .inl (h.trans wait.symm)
    · exact .inr (by simp [h, wait, stMoves])
  · generalize answer : rxByteStep s = t
    cases answer ▸ rxStep_rxByteStep inv with
    | closed => exact .inl rfl
    | byte ready offered =>
      have rx := ready.resolve_left wait
      exact .inl ((receiving_byteTaken inv ready offered).1.trans rx.symm)
    | frame ready session ended next =>
      have rx := ready.resolve_left wait
      exact .inr (by rcases next.st with h | h | h <;> simp [h, rx, stMoves])

theorem TickStep.stMove {s t : State} (next : TickStep s t) : StMove s t := by
  cases next with
  | counted => exact .inl rfl
  | round wait outstanding same => exact .inr (by simp [wait, roundOpened, stMoves])
  | failed wait same => exact .inr (by simp [wait, stMoves])
  | dropped wait same => exact .inr (by simp [wait, stMoves])

/-- Settles O57: event by event, each answer's `ST` against the row of the state it answers. -/
theorem sequencerTransitions : Obligations.SequencerTransitions := by
  intro s t e rest inv next noReset noFrame noCycle answers
  rw [step_of_facing ⟨next, inv.codes⟩] at answers
  have inv := inv_popped inv rest
  show StMove (s.popped rest) t
  cases e with
  | reset => cases noReset
  | host h =>
    obtain ⟨u, accessed, next⟩ := hostStep_hostAccess h (s.popped rest)
    cases answers.symm.trans accessed
    exact next.stMove inv
  | codecDone => cases answers; exact stMove_codecStep _
  | txByte => cases answers; exact (txStep_txByteStep inv).stMove
  | txFrame => cases answers; exact (txStep_txFrameStep inv).stMove
  | rxDatagram f =>
    cases answers
    refine .inl ?_
    rw [rxDatagramStep]
    split <;> rfl
  | rxByte => cases answers; exact stMove_rxByteStep inv
  | rxFrame => exact absurd rfl noFrame
  | tick => cases answers; exact (tickStep_of_inv inv).stMove
  | cycle c => exact absurd rfl (noCycle c)

end Sys2Proof.Machine
end

section
/-!
What holds of a step from any state: WMAX and a locked window size stay (10_state R116, R163), FAILED stays set
(R112), and the buffer memory stays in its canonical form.
-/
namespace Sys2Proof.Machine

/-! ### The sequencer and the ports -/

/-- The configuration is as it was, FAILED stays set, and the memory stays canonical. -/
structure Kept (s t : State) : Prop where
  cfg : t.cfg = s.cfg
  failed : s.sess.failed = true → t.sess.failed = true
  memory : Memory.wf s.mem = true → Memory.wf t.mem = true

theorem Kept.refl (s : State) : Kept s s := ⟨rfl, id, id⟩

theorem Kept.trans {s t u : State} (first : Kept s t) (second : Kept t u) : Kept s u :=
  ⟨second.cfg.trans first.cfg, second.failed ∘ first.failed, second.memory ∘ first.memory⟩

theorem kept_loopTest (s : State) : Kept s (loopTest s) := by
  rcases loopTest_spec s with ⟨-, next⟩ | ⟨-, -, next⟩ | ⟨-, -, next⟩ <;> rw [next] <;> exact ⟨rfl, id, id⟩

theorem kept_firstPush (s : State) : Kept s (firstPush s) := by
  rcases firstPush_spec s with ⟨-, -, next⟩ | ⟨-, next⟩ <;> rw [next]
  · exact ⟨rfl, id, id⟩
  · exact kept_loopTest s

theorem kept_acceptSend (flag : PacketFlag) (len : BitVec 10) (s : State) : Kept s (acceptSend flag len s) :=
  Kept.trans (t := loadSend flag len s) ⟨rfl, id, id⟩ (kept_firstPush _)

theorem kept_continueAfterTx (s : State) : Kept s (continueAfterTx s) := by
  cases cont : s.emission.cont with
  | loop =>
    rw [continueAfterTx_of_loop s cont]
    exact kept_loopTest s
  | finish =>
    rw [continueAfterTx_of_finish s cont]
    exact ⟨rfl, id, id⟩

theorem kept_startRound (k : TxCont) (s : State) : Kept s (startRound k s) := by
  rcases startRound_spec k s with ⟨-, next⟩ | ⟨-, next⟩ <;> rw [next]
  · exact ⟨rfl, id, id⟩
  · exact Kept.trans (t := roundOpened k s) ⟨rfl, id, id⟩ (kept_continueAfterTx _)

theorem kept_retransmit (s : State) : Kept s (retransmit s) :=
  Kept.trans (t := { s with timers := { s.timers with sessionCnt := 0#16 } }) ⟨rfl, id, id⟩ (kept_startRound _ _)

theorem kept_frameEmitted (s : State) : Kept s (frameEmitted s) := by
  rcases frameEmitted_spec s with ⟨-, next⟩ | ⟨-, next⟩ <;> rw [next]
  · exact ⟨rfl, id, id⟩
  · exact Kept.trans (t := { s with emission := { s.emission with queue := [], index := 0 } }) ⟨rfl, id, id⟩
      (kept_continueAfterTx _)

theorem kept_frameEmitted_with_sink (k : TxSink) (s : State) : Kept s (frameEmitted { s with sink := k }) :=
  Kept.trans (t := { s with sink := k }) ⟨rfl, id, id⟩ (kept_frameEmitted _)

theorem kept_txByteStep (s : State) : Kept s (txByteStep s) := by
  rcases txByteStep_spec s with ⟨-, next⟩ | ⟨b, -, next⟩ | ⟨b, -, next⟩ <;> rw [next]
  · exact .refl s
  · exact kept_frameEmitted_with_sink _ s
  · exact ⟨rfl, id, id⟩

theorem kept_txFrameStep (s : State) : Kept s (txFrameStep s) := by
  unfold txFrameStep
  split
  · split
    · exact .refl s
    · exact kept_frameEmitted_with_sink _ s
  · exact .refl s

theorem kept_afterAck (s : State) : Kept s (afterAck s) := by
  rcases afterAck_spec s with ⟨-, -, next⟩ | ⟨-, next⟩ <;> rw [next]
  · exact ⟨rfl, id, id⟩
  · exact kept_loopTest s

theorem kept_endRxFrame (s : State) : Kept s (endRxFrame s) := by
  rcases endRxFrame_spec s with ⟨-, next⟩ | ⟨-, -, next⟩ | ⟨-, -, next⟩ <;> rw [next]
  · exact ⟨rfl, id, id⟩
  · exact ⟨rfl, id, id⟩
  · exact Kept.trans (t := dropAcked s.rxr.seq (s.frameEnded { s.counters with ack := s.counters.ack + 1#32 }))
      ⟨rfl, id, id⟩ (kept_afterAck _)

theorem kept_byteTaken (s : State) (x : Byte) (source : RxSource) : Kept s (s.byteTaken x source) := by
  rw [byteTaken_frame]
  exact ⟨rfl, id, id⟩

theorem kept_receiveByte (x : Byte) (isLast : Bool) (s : State) (source : RxSource) :
    Kept s (receiveByte x isLast { s with source := source }) := by
  rw [receiveByte_with_source]
  split
  · exact (kept_byteTaken s x source).trans (kept_endRxFrame _)
  · exact kept_byteTaken s x source

theorem kept_receiveBytes (f : Frame) (s : State) : Kept s (receiveBytes f s) := by
  induction f generalizing s with
  | nil => exact .refl s
  | cons x tail ih =>
    cases tail with
    | nil => exact kept_receiveByte x true s s.source
    | cons y tail => exact (kept_receiveByte x false s s.source).trans (ih _)

theorem kept_rxByteStep (s : State) : Kept s (rxByteStep s) := by
  unfold rxByteStep
  split
  · split
    · exact .refl s
    · exact kept_receiveByte _ _ s _
  · exact .refl s

theorem kept_rxFrameStep (s : State) : Kept s (rxFrameStep s) := by
  unfold rxFrameStep
  split
  · split
    · exact .refl s
    · rename_i f later queued
      exact Kept.trans (t := s.delivered s.inputs later) ⟨rfl, id, id⟩ (kept_receiveBytes f _)
  · exact .refl s

theorem kept_rxDatagramStep (f : Frame) (s : State) : Kept s (rxDatagramStep f s) := by
  unfold rxDatagramStep
  split
  · exact .refl s
  · exact ⟨rfl, id, id⟩

theorem kept_giveUp (s : State) : Kept s (giveUp s) := by
  rcases giveUp_spec s with ⟨-, next⟩ | ⟨-, next⟩ | ⟨-, next⟩ <;> rw [next]
  · exact ⟨rfl, fun _ => rfl, id⟩
  · exact ⟨rfl, id, id⟩
  · exact Kept.trans (t := setPending giveupBit s) ⟨rfl, id, id⟩ (kept_retransmit _)

theorem kept_tickStep (s : State) : Kept s (tickStep s) := by
  have timers : Kept s (tickTimers s) := ⟨rfl, id, id⟩
  rcases tickStep_spec s with ⟨-, next⟩ | ⟨-, -, next⟩ | ⟨-, -, next⟩ <;> rw [next]
  · exact timers
  · exact timers.trans (kept_retransmit _)
  · exact timers.trans (kept_giveUp _)

theorem kept_codecStep (s : State) : Kept s (codecStep s) := by
  by_cases codec : s.st = .codec
  · rw [codecStep, if_pos codec, writeCodecResults_frame]
    exact ⟨rfl, id, wf_writeCodecResults⟩
  · rw [codecStep_of_not_codec s codec]
    exact .refl s

theorem kept_cycleSequencer (st0 : SeqState) (c : Cycle) (s : State) : Kept s (cycleSequencer st0 c s) := by
  rcases cycleSequencer_cases st0 c s with next | next | next | next <;> rw [next]
  · exact .refl s
  · exact kept_codecStep s
  · exact kept_txByteStep s
  · exact kept_rxByteStep s

/-! ### The host -/

/-- `Kept`, but that the host may write the configuration, and the window size only while the block is idle and the
configuration not locked. -/
structure HostKept (s t : State) : Prop where
  wmax : t.cfg.wmax = s.cfg.wmax
  window : s.busy = true ∨ s.sess.cfgLocked = true → t.cfg.windowSize = s.cfg.windowSize
  failed : s.sess.failed = true → t.sess.failed = true
  memory : Memory.wf s.mem = true → Memory.wf t.mem = true

theorem Kept.hostKept {s t : State} (kept : Kept s t) : HostKept s t :=
  ⟨by rw [kept.cfg], fun _ => by rw [kept.cfg], kept.failed, kept.memory⟩

theorem HostKept.trans_kept {s t u : State} (first : HostKept s t) (second : Kept t u) : HostKept s u :=
  ⟨by rw [second.cfg, first.wmax], fun fixed => by rw [second.cfg, first.window fixed],
    second.failed ∘ first.failed, second.memory ∘ first.memory⟩

theorem kept_issue {refusal : Option ErrCode} {accept : State → State} {s : State} (accepted : Kept s (accept s)) :
    Kept s (issue refusal accept s) := by
  unfold issue
  split
  · exact ⟨rfl, id, id⟩
  · split
    · exact ⟨rfl, id, id⟩
    · exact accepted

theorem IssueStep.kept {s t : State} (next : IssueStep s t) : Kept s t := by
  cases next with
  | refused code legal => exact kept_issue (.refl s)
  | encode flag len seq => exact kept_issue ⟨rfl, id, id⟩
  | decode => exact kept_issue ⟨rfl, id, id⟩
  | send flag len => exact kept_issue (kept_acceptSend flag len s)
  | sendall =>
    exact kept_issue (Kept.trans (t := { s with err := errOk }) ⟨rfl, id, id⟩ (kept_startRound _ _))

/-- A register write other than one to `WINDOW_SIZE` changes at most the other configuration fields. -/
theorem writeReg_cfg {r : Reg} (other : r ≠ .windowSize) (v : Word) (s : State) :
    ∃ p a g, (writeReg r v s).cfg = { s.cfg with policy := p, ackWait := a, giveup := g } := by
  by_cases ignored : writeIgnored (.reg r) v s
  · rw [writeReg_of_ignored ignored]
    exact ⟨_, _, _, rfl⟩
  · cases r with
    | ctrl =>
      obtain ⟨-, p, -, written⟩ := (writeCtrl_spec v s).resolve_left fun h => ignored h.1
      rw [writeReg, written]
      exact ⟨p, _, _, rfl⟩
    | ackWait =>
      rw [writeReg, ((writeAckWait_spec v s).resolve_left fun h => ignored h.1).2]
      exact ⟨_, _, _, rfl⟩
    | giveup | cbufLen =>
      have idle : ¬ s.busy = true := ignored
      simp only [writeReg, writeGiveup, writeCbufLen, if_neg idle]
      exact ⟨_, _, _, rfl⟩
    | windowSize => exact absurd rfl other
    | _ => exact ⟨_, _, _, rfl⟩

theorem writeReg_wmax (r : Reg) (v : Word) (s : State) : (writeReg r v s).cfg.wmax = s.cfg.wmax := by
  by_cases window : r = .windowSize
  · subst window
    rcases writeWindowSize_spec v s with ⟨-, written⟩ | ⟨-, written⟩ <;> rw [writeReg, written]
    rfl
  · obtain ⟨p, a, g, cfg⟩ := writeReg_cfg window v s
    rw [cfg]

theorem writeReg_windowSize {s : State} (fixed : s.busy = true ∨ s.sess.cfgLocked = true) (r : Reg) (v : Word) :
    (writeReg r v s).cfg.windowSize = s.cfg.windowSize := by
  by_cases window : r = .windowSize
  · subst window
    have ignored : writeIgnored (.reg .windowSize) v s := fixed.imp_right .inl
    rw [writeReg_of_ignored ignored]
    rfl
  · obtain ⟨p, a, g, cfg⟩ := writeReg_cfg window v s
    rw [cfg]

theorem WriteStep.hostKept {s t : State} (next : WriteStep s t) : HostKept s t := by
  cases next with
  | command next => exact next.kept.hostKept
  | reg r v =>
    refine ⟨writeReg_wmax r v s, fun fixed => writeReg_windowSize fixed r v, ?_, ?_⟩ <;> rw [writeReg_frame] <;> exact id
  | buffer a v =>
    rcases writeBuffer_spec a v s with ⟨-, written⟩ | ⟨-, written⟩ <;> rw [written]
    · exact ⟨rfl, fun _ => rfl, id, id⟩
    · exact ⟨rfl, fun _ => rfl, id, fun wf => Memory.wf_storeWord wf a v⟩
  | inert => exact (Kept.refl s).hostKept

theorem HostStep.hostKept {s t : State} (next : HostStep s t) : HostKept s t := by
  cases next with
  | read a => exact ⟨rfl, fun _ => rfl, id, id⟩
  | write next => exact next.hostKept
  | readWrite next => exact next.hostKept.trans_kept ⟨rfl, id, id⟩

/-! ### Every event but a reset -/

theorem hostKept_cycleStep {s t : State} {c : Cycle} (rst : c.rst = false) (answers : cycleStep c s = .next t) :
    HostKept s t := by
  obtain ⟨u, -, accessed, next⟩ := cycleStep_of_not_rst rst s
  have host : HostKept s u := accessed.elim (fun same => same ▸ (Kept.refl s).hostKept) HostStep.hostKept
  have sequenced := host.trans_kept (kept_cycleSequencer s.st c u)
  cases answers.symm.trans next
  split
  · exact sequenced.trans_kept (kept_tickStep _)
  · exact sequenced

theorem hostKept_eventEffect {s t : State} {e : Event} (noReset : e.isReset = false)
    (answers : eventEffect e s = .next t) : HostKept s t := by
  cases e with
  | reset => cases noReset
  | host h =>
    obtain ⟨u, accessed, next⟩ := hostStep_hostAccess h s
    cases answers.symm.trans accessed
    exact next.hostKept
  | codecDone => cases answers; exact (kept_codecStep s).hostKept
  | txByte => cases answers; exact (kept_txByteStep s).hostKept
  | txFrame => cases answers; exact (kept_txFrameStep s).hostKept
  | rxDatagram f => cases answers; exact (kept_rxDatagramStep f s).hostKept
  | rxByte => cases answers; exact (kept_rxByteStep s).hostKept
  | rxFrame => cases answers; exact (kept_rxFrameStep s).hostKept
  | tick => cases answers; exact (kept_tickStep s).hostKept
  | cycle c => exact hostKept_cycleStep noReset answers

/-- A step that answers a next state answers with the effect of its event. -/
theorem eventEffect_of_step {s t : State} {e : Event} {rest : List Event} (next : s.inputs = e :: rest)
    (answers : step s = .next t) : eventEffect e (s.popped rest) = .next t := by
  rw [step_of_inputs s e rest next, runEvent] at answers
  split at answers
  · exact answers
  · split at answers
    · cases answers
    · exact answers

theorem hostKept_step {s t : State} {e : Event} {rest : List Event} (next : s.inputs = e :: rest)
    (noReset : e.isReset = false) (answers : step s = .next t) : HostKept s t := by
  obtain ⟨wmax, window, failed, memory⟩ := hostKept_eventEffect noReset (eventEffect_of_step next answers)
  exact ⟨wmax, window, failed, memory⟩

/-- Settles O58. -/
theorem onlyResetClearsFailed : Obligations.OnlyResetClearsFailed :=
  fun _ _ _ _ next noReset failed answers => (hostKept_step next noReset answers).failed failed

/-- Settles O59. -/
theorem windowIsConstantInASession : Obligations.WindowIsConstantInASession := by
  intro s t e rest next noReset answers
  have kept := hostKept_step next noReset answers
  exact ⟨kept.wmax, kept.window⟩

/-! ### The memory -/

theorem eventEffect_of_isReset {e : Event} (reset : e.isReset = true) (s : State) :
    eventEffect e s = .next (resetBlock s) := by
  cases e with
  | reset => rfl
  | cycle c => exact if_pos reset
  | _ => cases reset

/-- Settles O56: the sequencer alone, an event that is no reset, and a reset. -/
theorem everyStepKeepsMemoryCanonical : Obligations.EveryStepKeepsMemoryCanonical := by
  intro s t wf answers
  cases next : s.inputs with
  | nil =>
    rw [step_alone s next, runAlone] at answers
    split at answers
    · cases answers
    · cases answers
      exact (kept_codecStep s).memory wf
  | cons e rest =>
    cases reset : e.isReset with
    | false => exact (hostKept_step next reset answers).memory wf
    | true =>
      have effect := eventEffect_of_step next answers
      rw [eventEffect_of_isReset reset] at effect
      cases effect
      exact wf_abandonedMem wf

end Sys2Proof.Machine
end

section
/-!
The frame that `encode` builds, byte by byte, its way back through `decode`, and the checksum under a change of one
byte (40_codec R403, R407, R408).
-/
namespace Sys2Proof.Machine

/-! ### The bytes of an encoded frame -/

theorem highByte_toNat (s : Seq) : (highByte s).toNat = s.toNat / 256 := by
  have := s.isLt
  rw [highByte, BitVec.extractLsb'_toNat, Nat.shiftRight_eq_div_pow]
  omega

theorem lowByte_toNat (s : Seq) : (lowByte s).toNat = s.toNat % 256 := by
  rw [lowByte, BitVec.extractLsb'_toNat, Nat.shiftRight_zero]

/-- Settles O6: the first byte is a checksum, the next three are named fields, and the payload follows as it is. -/
theorem encodeFrameLayout : Obligations.EncodeFrameLayout := by
  intro seq flag p
  refine ⟨(encodeFrame_length seq flag p).trans (Nat.add_comm _ _), checksum_toNat _, ?_, ?_, ?_, rfl⟩
  · rw [byteAt_encodeFrame_one, highByte_toNat]
  · rw [byteAt_encodeFrame_two, lowByte_toNat]
  · rw [byteAt_encodeFrame_three]
    cases flag <;> rfl

/-- Settles O8: an encoded frame has its four header bytes in front, and is split at them. -/
theorem frameRoundTrip : Obligations.FrameRoundTrip := by
  intro seq flag p _
  have long : 4 ≤ (encodeFrame seq flag p).length := by rw [encodeFrame_length]; omega
  exact ⟨_, decodeFrame_of_long _ long, frameSeq_encodeFrame seq flag p, byteAt_encodeFrame_three seq flag p, rfl, rfl⟩

/-! ### A change of one byte -/

/-- The checksum moves by what one covered byte moves. -/
theorem checksum_set {b : List Byte} {i : Nat} (h : i < b.length) (y : Byte) :
    checksum (b.set i y) + b[i] = checksum b + y := by
  induction b generalizing i with
  | nil => simp at h
  | cons x b ih =>
    cases i with
    | zero =>
      rw [List.set_cons_zero, List.getElem_cons_zero, checksum_cons, checksum_cons]
      ring
    | succ i =>
      have rest := ih (i := i) (by simpa using h)
      rw [List.set_cons_succ, List.getElem_cons_succ, checksum_cons, checksum_cons, BitVec.add_assoc, rest]
      ring

theorem flipped_ne (x : Byte) {k : Nat} (h : k < 8) : x ^^^ (1#8 <<< k) ≠ x := by
  intro same
  have bit : ((x ^^^ (1#8 <<< k)).getLsbD k) = x.getLsbD k := by rw [same]
  rw [BitVec.getLsbD_xor, BitVec.getLsbD_shiftLeft] at bit
  simp [h] at bit

/-- Settles O9: a flip in byte 0 moves the received checksum alone, any other flip the computed one alone. -/
theorem singleBitFlipIsDetected : Obligations.SingleBitFlipIsDetected := by
  intro f i k long passes inRange bit
  obtain ⟨b, covered, rfl⟩ := List.exists_cons_of_length_pos (Nat.lt_of_lt_of_le (by decide) long)
  have sum := (passesChecksum_cons_iff b covered).1 passes
  rw [← Bool.not_eq_true]
  cases i with
  | zero =>
    rw [List.set_cons_zero, passesChecksum_cons_iff, ← sum]
    exact flipped_ne b bit
  | succ j =>
    have inCovered : j < covered.length := by simpa using inRange
    have byte : byteAt (b :: covered) (j + 1) = covered[j] := by simp [byteAt, List.getD, inCovered]
    rw [List.set_cons_succ, passesChecksum_cons_iff, byte]
    intro undetected
    have moved := checksum_set inCovered (covered[j] ^^^ (1#8 <<< k))
    rw [← undetected, ← sum] at moved
    exact flipped_ne _ bit ((BitVec.add_right_inj _).1 moved).symm

end Sys2Proof.Machine
end

section
/-!
ENCODE and DECODE as commands (40_codec R410, R420): the frame in `CBUF`, the result words as numbers, and the one
after the other. Then what a failed session still accepts (60_exceptions R803).
-/
namespace Sys2Proof.Machine

/-! ### The buffers as lists of bytes -/

theorem loadBytes_eq_map (m : Memory) (a n : Nat) :
    Memory.loadBytes m a n = (List.range n).map fun i => Memory.load m (a + i) := by
  apply List.ext_getElem
  · simp
  · intro i h1 h2
    rw [Memory.getElem_loadBytes, List.getElem_map, List.getElem_range]

theorem payloadOperand_eq (s : State) (len : BitVec 10) : payloadOperand s len = txbufBytes s len.toNat :=
  loadBytes_eq_map ..

theorem frameOperand_eq (s : State) : frameOperand s = cbufBytes s s.codec.cbufLen.toNat :=
  loadBytes_eq_map ..

/-- A frame of at most 1000 bytes, stored in `CBUF`, is read back. -/
theorem cbufBytes_of_stored {s : State} {m : Memory} {f : Frame} (stored : s.mem = Memory.storeBytes m cbufBase f)
    (short : f.length ≤ 1000) : cbufBytes s f.length = f := by
  have exist : ∀ i, i < f.length → bufferByteExists (cbufBase + i) = true := by
    intro i hi
    have inCbuf : cbufBase + i < cbufBase + cbufSize := Nat.add_lt_add_left (Nat.lt_of_lt_of_le hi short) _
    simp [bufferByteExists, inCbuf]
  calc cbufBytes s f.length
      = Memory.loadBytes s.mem cbufBase f.length := (loadBytes_eq_map ..).symm
    _ = f := by rw [stored, Memory.loadBytes_storeBytes f m cbufBase exist]

/-! ### The end of a codec command -/

theorem complete_ok (s : State) : complete errOk s = s.endedOk := by
  rw [complete, if_pos rfl]
  rfl

theorem codecStep_of_encode {s : State} {f : Frame} (codec : s.st = .codec) (job : s.codec.job = some (.encode f)) :
    codecStep s = { s.endedOk with
      mem := Memory.storeBytes s.mem cbufBase f
      codec := { s.codec with cbufLen := BitVec.ofNat 10 f.length, job := none } } := by
  rw [codecStep, if_pos codec, complete_ok]
  simp only [writeCodecResults, job, State.endedOk]

theorem codecStep_of_decode {s : State} {result seqWord : Word} (codec : s.st = .codec)
    (job : s.codec.job = some (.decode result seqWord)) :
    codecStep s = { s.endedOk with
      codec := { s.codec with decResult := result, decSeq := seqWord, job := none } } := by
  rw [codecStep, if_pos codec, complete_ok]
  simp only [writeCodecResults, job, State.endedOk]

/-- The step of the event at the head of the list. -/
theorem step_popped_cons {s : State} (legal : CodesLegal s) (e : Event) (rest : List Event) :
    step (s.popped (e :: rest)) = eventEffect e (s.popped rest) :=
  step_of_facing (s := s.popped (e :: rest)) ⟨rfl, legal⟩

theorem codesLegal_of_codec {s : State} (codec : s.st = .codec) (ok : s.err = errOk) : CodesLegal s :=
  (codesLegal_iff s).2 ⟨by simp [codec], by simp [codec], by rw [ok]; decide⟩

/-- The step that ends a codec command, at the sequencer's event. -/
theorem step_of_codecDone {s : State} (codec : s.st = .codec) (ok : s.err = errOk) (rest : List Event) :
    step (s.popped (.codecDone :: rest)) = .next (codecStep (s.popped rest)) :=
  step_popped_cons (codesLegal_of_codec codec ok) .codecDone rest

/-- The step that ends a codec command, with no event to come. -/
theorem step_of_codec_alone {s : State} (codec : s.st = .codec) (ok : s.err = errOk) (none : s.inputs = []) :
    step s = .next (codecStep s) := by
  have legal : s.illegal? = Option.none := codesLegal_of_codec codec ok
  rw [step_alone s none, runAlone, legal]

/-! ### Acceptance -/

theorem exec_encode_of_legal {s : State} {flag : BitVec 2} {g : PacketFlag} {len : BitVec 10} (seq : Seq)
    (idle : s.st = .idle) (field : PacketFlag.ofField? flag = some g) (short : len.toNat ≤ 996) :
    exec (.encode flag len seq) s = .next (acceptEncode g len seq s) := by
  have passes : lengthCheck len = none := (lengthCheck_eq_none_iff len).2 short
  simp only [exec, execEncode, field]
  rw [passes, issue_accepted _ _ idle]

theorem exec_decode_of_legal {s : State} (idle : s.st = .idle) (low : 4 ≤ s.codec.cbufLen.toNat)
    (high : s.codec.cbufLen.toNat ≤ 1000) : exec .decode s = .next (acceptDecode s) := by
  have passes : malformedCheck s = none := (malformedCheck_eq_none_iff s).2 ⟨low, high⟩
  simp only [exec, execDecode]
  rw [passes, issue_accepted _ _ idle]

/-- Settles O15: the frame is built at the acceptance, and the second step stores it. -/
theorem encodeWritesTheFrame : Obligations.EncodeWritesTheFrame := by
  intro s flag g len seq rest idle field short
  have operand : encodeFrame seq g (payloadOperand s len) = encodeFrame seq g (txbufBytes s len.toNat) := by
    rw [payloadOperand_eq]
  have length : (encodeFrame seq g (payloadOperand s len)).length = len.toNat + 4 := by
    rw [encodeFrame_length, payloadOperand_length]
  have ends := codecStep_of_encode (s := (acceptEncode g len seq s).popped rest) rfl rfl
  rw [length] at ends
  refine ⟨_, _, exec_encode_of_legal seq idle field short, rfl, step_of_codecDone rfl rfl rest, ?_, ?_, ?_⟩
  · rw [ends]
    rfl
  · rw [ends, ← operand, ← length]
    exact cbufBytes_of_stored rfl (by omega)
  · rw [ends, ← length]
    exact fun b outside => Memory.load_storeBytes_outside _ _ _ _ outside

/-! ### The result words as numbers -/

theorem toNat_append_eq_add {v w : Nat} (x : BitVec v) (y : BitVec w) :
    (x ++ y).toNat = x.toNat * 2 ^ w + y.toNat := by
  rw [BitVec.toNat_append, ← Nat.shiftLeft_add_eq_or_of_lt y.isLt, Nat.shiftLeft_eq]

/-- MATCH of `DEC_RESULT` (10_state R185). -/
def matchBit (b : Frame) : Nat := (decide (byteAt b 0 = checksum b.tail)).toNat

theorem matchBit_eq (b : Frame) :
    matchBit b = if (byteAt b 0).toNat = ((b.drop 1).map BitVec.toNat).sum % 256 then 1 else 0 := by
  rw [List.drop_one, ← checksum_toNat]
  by_cases same : byteAt b 0 = checksum b.tail
  · simp [matchBit, same]
  · simp [matchBit, same, mt BitVec.eq_of_toNat_eq same]

theorem decResultWord_toNat (b : Frame) : (decResultWord b).toNat
    = (byteAt b 3).toNat * 16777216 + matchBit b * 65536 + (checksum b.tail).toNat * 256 + (byteAt b 0).toNat := by
  have word : decResultWord b
      = byteAt b 3 ++ 0#7 ++ BitVec.ofBool (decide (byteAt b 0 = checksum b.tail)) ++ checksum b.tail ++ byteAt b 0 :=
    rfl
  rw [word]
  simp only [toNat_append_eq_add, BitVec.toNat_ofBool, BitVec.toNat_ofNat, matchBit]
  omega

theorem decSeqWord_toNat {b : Frame} (low : 4 ≤ b.length) (high : b.length ≤ 1000) : (decSeqWord b).toNat
    = (b.length - 4) * 65536 + (byteAt b 1).toNat * 256 + (byteAt b 2).toNat := by
  have word : decSeqWord b
      = 0#6 ++ BitVec.ofNat 10 (b.length - Config.hdrLen) ++ byteAt b 1 ++ byteAt b 2 := rfl
  rw [word]
  simp only [toNat_append_eq_add, BitVec.toNat_ofNat, Config.hdrLen]
  omega

/-- Settles O16: the result words are computed at the acceptance, and the second step stores them. -/
theorem decodeReportsTheFields : Obligations.DecodeReportsTheFields := by
  intro s rest idle low high
  have length : (frameOperand s).length = s.codec.cbufLen.toNat := frameOperand_length s
  have ends := codecStep_of_decode (s := (acceptDecode s).popped rest) rfl rfl
  refine ⟨_, _, exec_decode_of_legal idle low high, rfl, step_of_codecDone rfl rfl rest, ?_, ?_⟩
  · rw [ends]
    rfl
  · rw [ends, ← frameOperand_eq]
    have result := decResultWord_toNat (frameOperand s)
    have seqWord := decSeqWord_toNat (b := frameOperand s) (by omega) (by omega)
    have bit : matchBit (frameOperand s) ≤ 1 := Bool.toNat_le _
    have b0 := (byteAt (frameOperand s) 0).isLt
    have b1 := (byteAt (frameOperand s) 1).isLt
    have b2 := (byteAt (frameOperand s) 2).isLt
    have sum := (checksum (frameOperand s).tail).isLt
    dsimp only
    rw [← matchBit_eq, List.drop_one, ← checksum_toNat, result, seqWord, length]
    refine ⟨?_, ?_, ?_, ?_, ?_, ?_⟩ <;> omega

/-! ### DECODE after ENCODE -/

theorem ofField?_eq_some_of_ne {flag : BitVec 2} (legal : flag ≠ 3#2) :
    ∃ g, PacketFlag.ofField? flag = some g ∧ g.code.toNat = flag.toNat := by
  revert flag
  decide

/-- What DECODE reports of a frame `encode` built (40_codec R407). -/
theorem decode_words_of_encodeFrame {seq : Seq} {g : PacketFlag} {p : List Byte} (short : p.length ≤ 996) :
    (decResultWord (encodeFrame seq g p)).toNat / 65536 % 256 = 1
    ∧ (decResultWord (encodeFrame seq g p)).toNat / 16777216 = g.code.toNat
    ∧ (decSeqWord (encodeFrame seq g p)).toNat = p.length * 65536 + seq.toNat := by
  have bit : matchBit (encodeFrame seq g p) = 1 := by simp [matchBit]
  have number := frameSeq_toNat (encodeFrame seq g p)
  rw [frameSeq_encodeFrame] at number
  have sum := (checksum (encodeFrame seq g p).tail).isLt
  have first := (byteAt (encodeFrame seq g p) 0).isLt
  have length := encodeFrame_length seq g p
  rw [decResultWord_toNat, decSeqWord_toNat (by omega) (by omega), bit, byteAt_encodeFrame_three]
  refine ⟨?_, ?_, ?_⟩ <;> omega

/-- Settles O18: the frame DECODE reads is the one ENCODE stored. -/
theorem decodeAfterEncodeMatches : Obligations.DecodeAfterEncodeMatches := by
  intro s flag len seq idle none legal short
  obtain ⟨g, field, code⟩ := ofField?_eq_some_of_ne legal
  obtain ⟨u, ended⟩ : ∃ u, u = codecStep (acceptEncode g len seq s) := ⟨_, rfl⟩
  have encoded := ended.trans (codecStep_of_encode rfl rfl)
  have payload : (payloadOperand s len).length = len.toNat := payloadOperand_length s len
  have length := encodeFrame_length seq g (payloadOperand s len)
  have cbufLen : u.codec.cbufLen.toNat = (encodeFrame seq g (payloadOperand s len)).length := by
    rw [encoded]
    show (BitVec.ofNat 10 _).toNat = _
    rw [BitVec.toNat_ofNat]
    omega
  have operand : frameOperand u = encodeFrame seq g (payloadOperand s len) := by
    rw [frameOperand_eq, cbufLen]
    exact cbufBytes_of_stored (m := s.mem) (by rw [encoded]; rfl) (by omega)
  have decoded := codecStep_of_decode (s := acceptDecode u) rfl rfl
  obtain ⟨matched, reported, number⟩ :=
    decode_words_of_encodeFrame (seq := seq) (g := g) (payload.trans_le short)
  have accepted : exec .decode u = .next (acceptDecode u) :=
    exec_decode_of_legal (by rw [encoded]; rfl) (by omega) (by omega)
  have idleAgain : (acceptDecode u).inputs = [] := by
    rw [acceptDecode_inputs, encoded]
    exact none
  refine ⟨_, u, _, _, exec_encode_of_legal seq idle field short, ?_, accepted,
    step_of_codec_alone rfl rfl idleAgain, ?_⟩
  · rw [ended]
    exact step_of_codec_alone rfl rfl none
  · rw [decoded, operand]
    refine ⟨matched, reported.trans code, number.trans (by rw [payload]), ?_, rfl, rfl⟩
    show u.sess = s.sess
    rw [encoded]
    rfl

/-! ### A failed session (60_exceptions R803) -/

theorem exec_send_of_failed {s : State} (idle : s.st = .idle) (failed : s.sess.failed = true) (g : PacketFlag)
    {len : BitVec 10} (short : len.toNat ≤ 996) : exec (sendInstr g len) s = .next (s.endedWith 6#4) := by
  have legal : lengthCheck len = none := (lengthCheck_eq_none_iff len).2 short
  have refused : sendCheck len s = some errFailed := by
    rw [sendCheck, legal]
    exact if_pos failed
  rw [exec_sendInstr, refused, issue_refused _ _ _ idle, complete_of_error (by decide)]
  rfl

/-- Settles O14: the SENDs and SENDALL fail check 6; the codec commands do not have it. -/
theorem failedSessionKeepsTheCodec : Obligations.FailedSessionKeepsTheCodec := by
  intro s flag len seq failed notBusy short
  have idle := (busy_eq_false_iff s).1 notBusy
  refine ⟨exec_send_of_failed idle failed .first short, exec_send_of_failed idle failed .middle short,
    exec_send_of_failed idle failed .last short, ?_, fun legal => ?_, fun low high => ?_⟩
  · have refused : failedCheck s = some errFailed := if_pos failed
    simp only [exec, execSendall]
    rw [refused, issue_refused _ _ _ idle, complete_of_error (by decide)]
    rfl
  · obtain ⟨g, field, -⟩ := ofField?_eq_some_of_ne legal
    exact ⟨_, exec_encode_of_legal seq idle field short, rfl, rfl, rfl⟩
  · exact ⟨_, exec_decode_of_legal idle low high, rfl, rfl, rfl⟩

end Sys2Proof.Machine
end

section
/-!
SEND and SENDALL at their acceptance, as exact next states (41_arq_send R501 to R511, R540, R553).
-/
namespace Sys2Proof.Machine

/-! ### Acceptance -/

/-- What a SEND loads (41_arq_send R501), with the packet and the sequence numbers as the spec names them. -/
theorem loadSend_eq (g : PacketFlag) (len : BitVec 10) (s : State) :
    loadSend g len s =
      { s with
        err := 0#4
        sess := { s.sess with
          curFlag := g, cfgLocked := true, lastSent := false
          inFlight := BitVec.ofNat 18 s.fifoLen, oldestSeq := s.headSeq
          pending := sentFrame s g len.toNat } } := by
  have head : s.sess.nextSeq - (BitVec.ofNat 18 s.fifoLen).setWidth 16 = s.headSeq := by
    rw [BitVec.setWidth_ofNat_of_le (by decide)]
    rfl
  rw [loadSend, head, payloadOperand_eq]
  rfl

theorem exec_send_of_legal {s : State} (idle : s.st = .idle) (alive : s.sess.failed = false) (g : PacketFlag)
    {len : BitVec 10} (short : len.toNat ≤ 996) :
    exec (sendInstr g len) s = .next (firstPush (loadSend g len s)) := by
  have passes : sendCheck len s = none := (sendCheck_eq_none_iff len s).2 ⟨short, alive⟩
  rw [exec_sendInstr, passes, issue_accepted _ _ idle]
  rfl

theorem flight_loadSend (g : PacketFlag) (len : BitVec 10) {s : State} (fits : s.fifoLen < 131072) :
    (loadSend g len s).flight = s.fifoLen :=
  toInt_ofNat_inFlight fits

theorem window_lt (s : State) : s.window < 65536 := s.cfg.windowSize.isLt

/-- The loop condition of a SEND just accepted (41_arq_send R503). -/
theorem loopHolds_loadSend_iff (g : PacketFlag) (len : BitVec 10) {s : State} (fits : s.fifoLen < 131072) :
    loopHolds (loadSend g len s) = true ↔ s.window ≤ s.fifoLen ∨ (g = .last ∧ 0 < s.fifoLen) := by
  rw [loopHolds_iff, flight_loadSend g len fits, Nat.cast_pos]
  exact or_congr_left Nat.cast_le

/-- With room in the window a data packet is pushed at once, to end the command (41_arq_send R503, R504). -/
theorem firstPush_of_data {g : PacketFlag} (data : g ≠ .last) (len : BitVec 10) {s : State}
    (room : s.fifoLen < s.window) : firstPush (loadSend g len s)
      = push (loadSend g len s).sess.pending .finish (loadSend g len s) := by
  have window := window_lt s
  have leaves : loopHolds (loadSend g len s) ≠ true := by
    rw [Ne, loopHolds_loadSend_iff g len (by omega)]
    rintro (full | ⟨last, -⟩)
    · omega
    · exact data last
  rcases firstPush_spec (loadSend g len s) with ⟨last, -, -⟩ | ⟨-, next⟩
  · exact absurd last data
  · rw [next]
    rcases loopTest_spec (loadSend g len s) with ⟨holds, -⟩ | ⟨-, last, -⟩ | ⟨-, -, next⟩
    · exact absurd holds leaves
    · exact absurd last data
    · exact next

/-- With room in the window the LAST packet is pushed at once, and the loop test follows (41_arq_send R502). -/
theorem firstPush_of_last (len : BitVec 10) {s : State} (room : s.fifoLen < s.window) :
    firstPush (loadSend .last len s)
      = push (loadSend .last len s).sess.pending .loop (loadSend .last len s) := by
  have window := window_lt s
  have flight := flight_loadSend .last len (s := s) (by omega)
  rcases firstPush_spec (loadSend .last len s) with ⟨-, -, next⟩ | ⟨data | full, -⟩
  · exact next
  · exact absurd rfl data
  · have full : (s.window : Int) ≤ (loadSend .last len s).flight := full
    omega

/-- With a full window every SEND waits (41_arq_send R502, R503). -/
theorem firstPush_of_full (g : PacketFlag) (len : BitVec 10) {s : State} (full : s.window ≤ s.fifoLen)
    (fits : s.fifoLen ≤ 32768) : firstPush (loadSend g len s) = startAttempt (loadSend g len s) := by
  have flight := flight_loadSend g len (s := s) (by omega)
  have holds : loopHolds (loadSend g len s) = true := (loopHolds_loadSend_iff g len (by omega)).2 (.inl full)
  rcases firstPush_spec (loadSend g len s) with ⟨-, room, -⟩ | ⟨-, next⟩
  · have room : (loadSend g len s).flight < (s.window : Int) := room
    omega
  · rw [next, loopTest, if_pos holds]

/-- Settles O19: the packet is pushed from the loaded state. -/
theorem sendDataPushesWithRoom : Obligations.SendDataPushesWithRoom := by
  intro s i g len which idle alive short room
  have spelled : i = sendInstr g len ∧ g ≠ .last := by
    rcases which with ⟨rfl, rfl⟩ | ⟨rfl, rfl⟩ <;> exact ⟨rfl, by decide⟩
  obtain ⟨rfl, data⟩ := spelled
  rw [exec_send_of_legal idle alive g short, firstPush_of_data data len room, loadSend_eq]
  exact congrArg _ (push_eq _ _ _ (if_neg data) rfl)

/-- Settles O20: the attempt starts from the loaded state. -/
theorem sendWaitsWhenFull : Obligations.SendWaitsWhenFull := by
  intro s i g len which idle alive short full fits
  have spelled : i = sendInstr g len := by
    rcases which with ⟨rfl, rfl⟩ | ⟨rfl, rfl⟩ | ⟨rfl, rfl⟩ <;> rfl
  rw [spelled, exec_send_of_legal idle alive g short, firstPush_of_full g len full fits, loadSend_eq]
  rfl

/-- Settles O21: as O19, with `LAST_SENT` set and the loop test to come. -/
theorem sendLastPushesWithRoom : Obligations.SendLastPushesWithRoom := by
  intro s len idle alive short room
  have accepted := exec_send_of_legal idle alive .last short
  rw [firstPush_of_last len room, loadSend_eq] at accepted
  exact accepted.trans (congrArg _ (push_eq _ _ _ (if_pos rfl) rfl))

/-! ### SEND.LAST alone (41_arq_send R553) -/

/-- The sink takes the head frame whole. -/
theorem txFrameStep_of_queue {s : State} {f : Frame} {later : List Frame} (emitting : s.emitting = true)
    (queue : s.emission.queue = f :: later) :
    txFrameStep s = frameEmitted { s with
      sink := { frames := s.sink.frames ++ [s.sink.part ++ f.drop s.emission.index], part := [] } } := by
  simp only [txFrameStep, emitting, if_true, queue]

/-- A LAST packet with nothing unacknowledged at its acceptance ends the command once it is out. -/
theorem txFrameStep_of_lastAlone {s : State} {f : Frame} (tx : s.st = .tx) (cont : s.emission.cont = .loop)
    (queue : s.emission.queue = [f]) (whole : s.emission.index = 0) (fresh : s.sink.part = [])
    (last : s.sess.curFlag = .last) (none : s.sess.inFlight = 0#18) (window : 1 ≤ s.window) :
    txFrameStep s = (s.emitted { frames := s.sink.frames ++ [f], part := [] } []).endedOk := by
  have emitting : s.emitting = true := (emitting_eq_true_iff s).2 (.inl tx)
  have leaves : ¬ loopHolds s = true := by
    have flight : s.flight = 0 := by rw [State.flight, none]; rfl
    rw [loopHolds_iff, flight]
    rintro (full | ⟨-, positive⟩) <;> omega
  rw [txFrameStep_of_queue emitting queue, frameEmitted_with_sink queue, if_pos rfl, whole, fresh, List.drop_zero,
    List.nil_append,
    continueAfterTx_of_loop (s.emitted { frames := s.sink.frames ++ [f], part := [] } []) cont]
  rcases loopTest_spec (s.emitted { frames := s.sink.frames ++ [f], part := [] } []) with
    ⟨holds, -⟩ | ⟨-, -, next⟩ | ⟨-, data, -⟩
  · exact absurd holds leaves
  · rw [next, complete_ok]
  · exact absurd last data

/-- Settles O22: the push of O21, and then the end of the command at the emission. -/
theorem sendLastAloneCompletes : Obligations.SendLastAloneCompletes := by
  intro s len rest idle alive short empty window fresh next
  have length : s.fifoLen = 0 := by rw [State.fifoLen, empty]; rfl
  have packet : (loadSend .last len s).sess.pending = sentFrame s .last len.toNat := by rw [loadSend_eq]
  have accepted := exec_send_of_legal idle alive .last short
  rw [firstPush_of_last len (by omega), packet] at accepted
  obtain ⟨t, pushed⟩ : ∃ t, t = push (sentFrame s .last len.toNat) .loop (loadSend .last len s) := ⟨_, rfl⟩
  rw [← pushed] at accepted
  have facing : t.facing .txFrame rest := by
    rw [pushed]
    exact ⟨next, (codesLegal_iff _).2 ⟨by simp, by simp, Nat.zero_le _⟩⟩
  have none : t.sess.inFlight = 0#18 := by rw [pushed, push_sess_inFlight, loadSend_sess_inFlight, length]
  have emitted := txFrameStep_of_lastAlone (s := t.popped rest) (f := sentFrame s .last len.toNat)
    (by rw [pushed]; rfl) (by rw [pushed]; rfl) (by rw [pushed]; rfl) (by rw [pushed]; rfl)
    (by rw [pushed]; exact fresh) (by rw [pushed]; rfl) none (by rw [pushed]; exact window)
  refine ⟨t, _, accepted, (step_of_facing facing).trans (congrArg Host.Outcome.next emitted), rfl, rfl, ?_⟩
  rw [pushed]
  refine ⟨rfl, ?_, rfl, ?_, rfl, rfl, rfl, rfl, rfl, rfl⟩
  · show s.sess.fifo ++ _ = _
    rw [empty, List.nil_append]
  · show (if s.sess.fifo = [] then 0#16 else _) = _
    rw [if_pos empty]

/-- Settles O23. -/
theorem sendallResendsTheFifo : Obligations.SendallResendsTheFifo := by
  intro s idle alive
  have passes : failedCheck s = none := (failedCheck_eq_none_iff s).2 alive
  have accepted : exec .sendall s = .next (acceptSendall s) := by
    simp only [exec, execSendall]
    rw [passes, issue_accepted _ _ idle]
  rw [accepted]
  rcases acceptSendall_spec s with ⟨outstanding, opened⟩ | ⟨empty, ended⟩
  · exact ⟨fun _ => by rw [opened]; rfl, fun empty => absurd empty outstanding⟩
  · refine ⟨fun outstanding => absurd empty outstanding, fun _ => ?_⟩
    rw [ended, complete_ok, ← empty]
    rfl

end Sys2Proof.Machine
end

section
/-!
The TX port (20_memory R220, R221, 41_arq_send R511): what the emission of a frame leads to, the same emission byte by
byte, and the two ports outside their states.
-/
namespace Sys2Proof.Machine

/-! ### One frame (41_arq_send R511) -/

/-- With the bytes it holds the sink completes the head frame. -/
theorem part_append_drop {s : State} (inv : Inv s) (emitting : s.emitting = true) {f : Frame} {later : List Frame}
    (queue : s.emission.queue = f :: later) : s.sink.part ++ f.drop s.emission.index = f := by
  obtain ⟨-, g, later', queue', -, part⟩ := inv.txOpen emitting
  obtain ⟨rfl, rfl⟩ : f = g ∧ later = later' := by simpa [queue] using queue'
  rw [part, List.take_append_drop]

/-- Settles O24: the three answers of the TX port to the last byte of a frame, each told from the others by what is
left to emit and by the loop condition. -/
theorem frameEmissionContinues : Obligations.FrameEmissionContinues := by
  intro s f later rest inv next emitting queue
  have inv' := inv_popped inv rest
  have whole := part_append_drop inv emitting queue
  have emission := emissionStep_frameEmitted (s := s.popped rest) inv' emitting queue
    { frames := s.sink.frames ++ [f], part := [] }
  have holds_iff : loopHolds (s.popped rest) = true ↔ loopCondition s.sess.curFlag s.window s.flight :=
    loopHolds_iff _
  have taken : step s = .next (frameEmitted { s.popped rest with
      sink := { frames := s.sink.frames ++ [f], part := [] } }) := by
    rw [step_of_facing ⟨next, inv.codes⟩]
    show Host.Outcome.next (txFrameStep (s.popped rest)) = _
    rw [txFrameStep_of_queue (s := s.popped rest) emitting queue]
    show Host.Outcome.next (frameEmitted { s.popped rest with
      sink := { frames := s.sink.frames ++ [s.sink.part ++ f.drop s.emission.index], part := [] } }) = _
    rw [whole]
  generalize frameEmitted { s.popped rest with sink := { frames := s.sink.frames ++ [f], part := [] } } = t
    at emission taken
  refine ⟨t, taken, ?_⟩
  cases emission with
  | more left => exact ⟨rfl, fun _ => rfl, fun none => absurd none left, fun none => absurd none left⟩
  | attempt none loop send holds =>
    subst none
    refine ⟨rfl, fun left => absurd rfl left, fun _ finish => ?_, fun _ _ => ⟨fun _ => rfl, fun leaves => ?_⟩⟩
    · exact absurd (finish.symm.trans loop) (by decide)
    · exact absurd (holds_iff.1 holds) leaves
  | done none ends room =>
    subst none
    rw [complete_ok]
    refine ⟨rfl, fun left => absurd rfl left, fun _ _ => rfl, fun _ loop => ⟨fun waits => ?_, fun _ => rfl⟩⟩
    rcases ends with finish | leaves
    · exact absurd (finish.symm.trans loop) (by decide)
    · exact absurd ((holds_iff.2 waits).symm.trans leaves) (by decide)

/-! ### Byte by byte -/

theorem txOffer_of_queue {s : State} {f : Frame} {later : List Frame} {b : Byte} (emitting : s.emitting = true)
    (queue : s.emission.queue = f :: later) (byte : f[s.emission.index]? = some b) :
    s.txOffer = some (b, decide (s.emission.index + 1 = f.length)) := by
  simp only [State.txOffer, emitting, if_true, queue, byte]

theorem txByteStep_of_notLast {s : State} {f : Frame} {later : List Frame} (emitting : s.emitting = true)
    (queue : s.emission.queue = f :: later) (more : s.emission.index + 1 < f.length) :
    txByteStep s = s.advanced f[s.emission.index] := by
  have offer := txOffer_of_queue emitting queue (List.getElem?_eq_getElem (Nat.lt_of_succ_lt more))
  rw [decide_eq_false (Nat.ne_of_lt more)] at offer
  simp only [txByteStep, offer]
  rfl

/-- The last byte of a frame, taken alone, is all that is left of the frame. -/
theorem txByteStep_of_last {s : State} {f : Frame} {later : List Frame} (emitting : s.emitting = true)
    (queue : s.emission.queue = f :: later) (last : s.emission.index + 1 = f.length) :
    txByteStep s = txFrameStep s := by
  have inRange : s.emission.index < f.length := by omega
  have offer := txOffer_of_queue emitting queue (List.getElem?_eq_getElem inRange)
  have left : f.drop s.emission.index = [f[s.emission.index]] := by
    rw [List.drop_eq_getElem_cons inRange, last, List.drop_length]
  rw [decide_eq_true last] at offer
  rw [txFrameStep_of_queue emitting queue, left]
  simp only [txByteStep, offer]
  rfl

/-- Taking one byte first makes no difference to the taking of the frame. -/
theorem txFrameStep_advanced {s : State} {f : Frame} {later : List Frame} (emitting : s.emitting = true)
    (queue : s.emission.queue = f :: later) (inRange : s.emission.index < f.length) :
    txFrameStep (s.advanced f[s.emission.index]) = txFrameStep s := by
  have emitting' : (s.advanced f[s.emission.index]).emitting = true := emitting
  have queue' : (s.advanced f[s.emission.index]).emission.queue = f :: later := queue
  have bytes : (s.sink.part ++ [f[s.emission.index]]) ++ f.drop (s.emission.index + 1)
      = s.sink.part ++ f.drop s.emission.index := by
    rw [List.append_assoc, List.singleton_append, ← List.drop_eq_getElem_cons inRange]
  rw [txFrameStep_of_queue emitting' queue', frameEmitted_with_sink queue', txFrameStep_of_queue emitting queue,
    frameEmitted_with_sink queue, ← bytes]
  rfl

/-- The bytes left of the head frame, one event each, and the frame at once. -/
theorem run_txBytes {f : Frame} {later : List Frame} {rest : List Event} (n : Nat) (s : State)
    (legal : CodesLegal s) (emitting : s.emitting = true) (queue : s.emission.queue = f :: later)
    (left : s.emission.index + (n + 1) = f.length) :
    Host.Core.run core (n + 1) (s.popped (List.replicate (n + 1) .txByte ++ rest))
      = .next (txFrameStep (s.popped rest)) := by
  induction n generalizing s with
  | zero =>
    have taken : step (s.popped (.txByte :: rest)) = .next (txByteStep (s.popped rest)) :=
      step_popped_cons legal .txByte rest
    rw [txByteStep_of_last (s := s.popped rest) emitting queue left] at taken
    exact run_succ_of_next taken
  | succ n ih =>
    have inRange : s.emission.index < f.length := by omega
    have taken : step (s.popped (.txByte :: (List.replicate (n + 1) .txByte ++ rest)))
        = .next (txByteStep (s.popped (List.replicate (n + 1) .txByte ++ rest))) :=
      step_popped_cons legal .txByte _
    have first := txByteStep_of_notLast (s := s.popped (List.replicate (n + 1) .txByte ++ rest)) emitting queue
      (show s.emission.index + 1 < f.length by omega)
    rw [first] at taken
    have advances := ih (s.advanced f[s.emission.index]) legal emitting queue
      (show s.emission.index + 1 + (n + 1) = f.length by omega)
    have same := txFrameStep_advanced (s := s.popped rest) emitting queue inRange
    rw [List.replicate_succ, List.cons_append]
    exact (run_succ_of_next taken).trans (advances.trans (congrArg Host.Outcome.next same))

/-- Settles O25: by induction on the bytes left of the frame. -/
theorem byteEmissionRefinesFrameEmission : Obligations.ByteEmissionRefinesFrameEmission := by
  intro s f later rest inv emitting queue
  obtain ⟨-, g, later', queue', inRange, -⟩ := inv.txOpen emitting
  obtain ⟨rfl, rfl⟩ : f = g ∧ later = later' := by simpa [queue] using queue'
  obtain ⟨n, left⟩ : ∃ n, f.length - s.emission.index = n + 1 := Nat.exists_eq_succ_of_ne_zero (by omega)
  rw [left]
  exact ⟨_, run_txBytes n s inv.codes emitting queue (by omega),
    step_popped_cons inv.codes .txFrame rest⟩

/-! ### The ports outside their states (20_memory R220, R223) -/

theorem txByteStep_of_closed {s : State} (closed : s.emitting = false) : txByteStep s = s := by
  have offer : s.txOffer = none := by simp only [State.txOffer, closed, Bool.false_eq_true, if_false]
  simp only [txByteStep, offer]

theorem txFrameStep_of_closed {s : State} (closed : s.emitting = false) : txFrameStep s = s := by
  simp only [txFrameStep, closed, Bool.false_eq_true, if_false]

theorem rxByteStep_of_closed {s : State} (wait : s.st ≠ .waitAck) (rx : s.st ≠ .rx) : rxByteStep s = s :=
  if_neg fun ready => ((rxReady_eq_true_iff s).1 ready).elim wait rx

theorem rxFrameStep_of_closed {s : State} (wait : s.st ≠ .waitAck) : rxFrameStep s = s :=
  if_neg fun ready => wait ready.1

/-- Settles O26. -/
theorem closedPortsTransferNothing : Obligations.ClosedPortsTransferNothing := by
  intro s e rest facing closed
  rw [step_of_facing facing]
  rcases closed with ⟨tx, retx, event⟩ | ⟨wait, rx, event⟩
  · have quiet : (s.popped rest).emitting = false := (emitting_eq_false_iff s).2 ⟨tx, retx⟩
    rcases event with rfl | rfl
    · exact congrArg Host.Outcome.next (txByteStep_of_closed quiet)
    · exact congrArg Host.Outcome.next (txFrameStep_of_closed quiet)
  · rcases event with rfl | rfl
    · exact congrArg Host.Outcome.next (rxByteStep_of_closed (s := s.popped rest) wait rx)
    · exact congrArg Host.Outcome.next (rxFrameStep_of_closed (s := s.popped rest) wait)

end Sys2Proof.Machine
end

section
/-!
The RX port (42_arq_events R621, R650, R651, 20_memory R222 to R224): what a valid ACK leaves of the FIFO, a frame
received byte by byte, and the datagrams that wait.
-/
namespace Sys2Proof.Machine

/-! ### What a valid ACK leaves (42_arq_events R650, R651) -/

theorem step_of_validAck {s : State} {f : Frame} {later : List Frame} {rest : List Event}
    (facing : s.facing .rxFrame rest) (wait : s.st = .waitAck)
    (source : s.source = { rest := [], waiting := f :: later }) (long : 4 ≤ f.length)
    (passes : passesChecksum (f.take 1000) = true) :
    step s = .next (afterAck (dropAcked (frameSeq f) ((s.delivered rest later).ackTaken f))) := by
  have nonempty : f ≠ [] := List.ne_nil_of_length_pos (by omega)
  rw [step_of_rxFrame facing wait source nonempty, endRxFrame_of_validAck _ long passes]

/-- After the drop the session stays as it is, but for the push of the pending packet. -/
theorem afterAck_sess (s : State) :
    (afterAck s).sess = s.sess ∨ ∃ k, (afterAck s).sess = (push s.sess.pending k s).sess := by
  rcases afterAck_spec s with ⟨-, -, next⟩ | ⟨-, next⟩ <;> rw [next]
  · exact .inr ⟨.loop, rfl⟩
  · rcases loopTest_spec s with ⟨-, next⟩ | ⟨-, -, next⟩ | ⟨-, -, next⟩ <;> rw [next]
    · exact .inl rfl
    · exact .inl rfl
    · exact .inr ⟨.finish, rfl⟩

theorem afterAck_fifo (s : State) :
    (afterAck s).sess.fifo = s.sess.fifo ∨ (afterAck s).sess.fifo = s.sess.fifo ++ [s.sess.pending] :=
  (afterAck_sess s).imp (fun same => by rw [same]) fun ⟨_, pushed⟩ => by rw [pushed, push_sess_fifo]

/-- A filter that holds from an index on drops the elements before it. -/
theorem filter_eq_drop {α : Type} {l : List α} {p : α → Bool} {c : Nat}
    (h : ∀ i (hi : i < l.length), p l[i] = decide (c ≤ i)) : l.filter p = l.drop c := by
  have before : (l.take c).filter p = [] := by
    rw [List.filter_eq_nil_iff]
    intro x mem
    obtain ⟨i, hi, rfl⟩ := List.mem_take_iff_getElem.1 mem
    rw [h i (by omega), decide_eq_true_iff]
    omega
  have after : (l.drop c).filter p = l.drop c := by
    rw [List.filter_eq_self]
    intro x mem
    obtain ⟨i, hi, rfl⟩ := List.mem_drop_iff_getElem.1 mem
    rw [h (c + i) (by omega), decide_eq_true_iff]
    omega
  calc l.filter p
      = (l.take c).filter p ++ (l.drop c).filter p := by rw [← List.filter_append, List.take_append_drop]
    _ = l.drop c := by rw [before, after, List.nil_append]

/-- The numbers of the FIFO count from `HEAD_SEQ` without a wrap onto themselves (10_state R131). -/
theorem frameSeq_sub_headSeq {s : State} (inv : Inv s) {i : Nat} (hi : i < s.sess.fifo.length) :
    (frameSeq s.sess.fifo[i] - s.headSeq).toNat = i := by
  have number := inv.session.order i _ (List.getElem?_eq_getElem hi)
  have bound : s.sess.fifo.length ≤ s.window + 1 := inv.session.bound
  have narrow := window_le_of_inv inv
  have distance : frameSeq s.sess.fifo[i] - s.headSeq = BitVec.ofNat 16 i := by
    rw [number]
    ring
  rw [distance, BitVec.toNat_ofNat]
  omega

/-- Settles O29: the frames dropped are those whose index lies below the count, and the index of a frame is its
number's distance from `OLDEST_SEQ`. -/
theorem ackRemovesExactlyTheAcknowledged : Obligations.AckRemovesExactlyTheAcknowledged := by
  intro s f later rest inv next wait source long passes oldest _
  refine ⟨_, step_of_validAck ⟨next, inv.codes⟩ wait source long passes, ?_⟩
  have kept : (s.sess.fifo.filter fun g =>
        decide ((frameSeq f - s.sess.oldestSeq + 1#16).toNat ≤ (frameSeq g - s.sess.oldestSeq).toNat))
      = s.sess.fifo.drop (frameSeq f - s.sess.oldestSeq + 1#16).toNat := by
    refine filter_eq_drop fun i hi => ?_
    have index : (frameSeq s.sess.fifo[i] - s.sess.oldestSeq).toNat = i := by rw [oldest, frameSeq_sub_headSeq inv hi]
    rw [index]
  dsimp only
  rw [kept]
  exact afterAck_fifo (dropAcked (frameSeq f) ((s.delivered rest later).ackTaken f))

/-- Settles O30: the count is above the length of the FIFO, and it is taken from a positive `IN_FLIGHT`. -/
theorem staleAckDropsEverything : Obligations.StaleAckDropsEverything := by
  intro s f later rest inv next wait source long passes stale
  have positive : 0 < s.flight := flight_pos_of_loopHolds (inv.session.loopOn (.inl wait)) inv.window_pos
  have dropped : s.sess.fifo.drop (frameSeq f - s.sess.oldestSeq + 1#16).toNat = [] :=
    List.drop_eq_nil_of_le (Nat.le_of_lt stale)
  have flight := toInt_inFlight_sub (Int.le_of_lt positive) (frameSeq f - s.sess.oldestSeq + 1#16)
  have oldest : s.sess.oldestSeq + (frameSeq f - s.sess.oldestSeq + 1#16) = frameSeq f + 1#16 := by ring
  obtain ⟨u, acked⟩ : ∃ u, u = dropAcked (frameSeq f) ((s.delivered rest later).ackTaken f) := ⟨_, rfl⟩
  have fifo : u.sess.fifo = [] := by rw [acked]; exact dropped
  have pending : u.sess.pending = s.sess.pending := by rw [acked]; rfl
  have inFlight : u.sess.inFlight.toInt = s.flight - (frameSeq f - s.sess.oldestSeq + 1#16).toNat := by
    rw [acked]
    exact flight
  have oldestSeq : u.sess.oldestSeq = frameSeq f + 1#16 := by rw [acked]; exact oldest
  refine ⟨afterAck u, acked ▸ step_of_validAck ⟨next, inv.codes⟩ wait source long passes, ?_⟩
  unfold State.flight at inFlight ⊢
  rcases afterAck_sess u with same | ⟨k, pushed⟩
  · rw [same]
    exact ⟨.inl fifo, inFlight, oldestSeq⟩
  · rw [pushed, push_sess_fifo, push_sess_inFlight, push_sess_oldestSeq, fifo, pending]
    exact ⟨.inr rfl, inFlight, oldestSeq⟩

/-! ### Byte by byte (20_memory R222, R224) -/

/-- In RX the port takes the next byte of the frame under delivery. -/
theorem rxByteStep_of_rx {s : State} {x : Byte} {tail : Frame} {later : List Frame} (rx : s.st = .rx)
    (source : s.source = { rest := x :: tail, waiting := later }) :
    rxByteStep s = if tail.isEmpty then
      endRxFrame (State.received [x] { s with source := { rest := tail, waiting := later } })
      else State.received [x] { s with source := { rest := tail, waiting := later } } := by
  have ready : s.rxReady = true := (rxReady_eq_true_iff s).2 (.inr rx)
  have taken := receiveByte_of_rx (s := { s with source := { rest := tail, waiting := later } }) rx x tail.isEmpty
  rw [← taken]
  simp only [rxByteStep, ready, if_true, source, RxSource.offer]

/-- The rest of a frame, one event for each byte, in RX. -/
theorem run_rxBytes {later : List Frame} {rest : List Event} (x : Byte) (tail : Frame) (s : State)
    (legal : CodesLegal s) (rx : s.st = .rx) (source : s.source = { rest := x :: tail, waiting := later }) :
    Host.Core.run core (tail.length + 1) (s.popped (List.replicate (tail.length + 1) .rxByte ++ rest))
      = .next (endRxFrame ((s.delivered rest later).received (x :: tail))) := by
  induction tail generalizing x s with
  | nil =>
    have taken : step (s.popped (.rxByte :: rest)) = .next (rxByteStep (s.popped rest)) :=
      step_popped_cons legal .rxByte rest
    rw [rxByteStep_of_rx (s := s.popped rest) rx source] at taken
    exact run_succ_of_next taken
  | cons y tail ih =>
    have taken : step (s.popped (.rxByte :: (List.replicate (tail.length + 1) .rxByte ++ rest)))
        = .next (rxByteStep (s.popped (List.replicate (tail.length + 1) .rxByte ++ rest))) :=
      step_popped_cons legal .rxByte _
    have first := rxByteStep_of_rx (s := s.popped (List.replicate (tail.length + 1) .rxByte ++ rest)) rx source
    rw [first] at taken
    have later_bytes := ih y (State.received [x] { s with source := { rest := y :: tail, waiting := later } })
      legal rx rfl
    have joined := received_cons x (y :: tail) (s.delivered rest later)
    rw [List.length_cons, List.replicate_succ, List.cons_append, ← joined]
    exact (run_succ_of_next taken).trans later_bytes

/-- `s` with the frame `f` opened: in RX, its bytes under delivery. -/
def State.opened (s : State) (f : Frame) (later : List Frame) : State :=
  { s with
    st := .rx
    rxr := { s.rxr with active := true, len := 0, sum := 0#8 }
    source := { rest := f, waiting := later } }

/-- The first byte of a frame in WAIT_ACK is the first byte of the frame opened (42_arq_events R602). -/
theorem rxByteStep_of_waitAck {s : State} {x : Byte} {tail : Frame} {later : List Frame} (wait : s.st = .waitAck)
    (source : s.source = { rest := [], waiting := (x :: tail) :: later }) :
    rxByteStep s = rxByteStep (s.opened (x :: tail) later) := by
  have ready : s.rxReady = true := (rxReady_eq_true_iff s).2 (.inl wait)
  have ready' : (s.opened (x :: tail) later).rxReady = true := (rxReady_eq_true_iff _).2 (.inr rfl)
  have opens : openRxFrame { s with source := { rest := tail, waiting := later } } = s.opened tail later := if_pos wait
  have stays : openRxFrame (s.opened tail later) = s.opened tail later := if_neg (by simp [State.opened])
  have first : receiveByte x tail.isEmpty { s with source := { rest := tail, waiting := later } }
      = receiveByte x tail.isEmpty (s.opened tail later) := by
    simp only [receiveByte, opens, stays]
  simp only [rxByteStep, ready, ready', if_true, source, RxSource.offer]
  exact first

theorem received_opened (s : State) (f : Frame) (rest : List Event) (later : List Frame) :
    ((s.opened f later).delivered rest later).received f = (s.delivered rest later).frameTaken f := by
  simp [State.opened, State.delivered, State.popped, State.received, State.frameTaken, truncIncrement]

/-- Settles O31: the first byte opens the frame, and the bytes of an opened frame are those of the frame at once. -/
theorem byteReceptionRefinesFrameReception : Obligations.ByteReceptionRefinesFrameReception := by
  intro s f later rest inv wait source
  have nonempty : f ≠ [] := inv.rx.nonempty f (by rw [source]; exact List.mem_cons_self ..)
  refine ⟨endRxFrame ((s.delivered rest later).frameTaken f), ?_, ?_⟩
  · obtain ⟨x, tail, rfl⟩ := List.exists_cons_of_ne_nil nonempty
    have legal' : CodesLegal (s.opened (x :: tail) later) :=
      (codesLegal_iff _).2 ⟨by simp [State.opened], by simp [State.opened], inv.steady.1⟩
    have opened := run_rxBytes (rest := rest) x tail (s.opened (x :: tail) later) legal' rfl rfl
    rw [received_opened, List.replicate_succ, List.cons_append] at opened
    have first : step (s.popped (.rxByte :: (List.replicate tail.length .rxByte ++ rest)))
        = .next (rxByteStep (s.popped (List.replicate tail.length .rxByte ++ rest))) :=
      step_popped_cons inv.codes .rxByte _
    have first' : step ((s.opened (x :: tail) later).popped (.rxByte :: (List.replicate tail.length .rxByte ++ rest)))
        = .next (rxByteStep ((s.opened (x :: tail) later).popped (List.replicate tail.length .rxByte ++ rest))) :=
      step_popped_cons legal' .rxByte _
    have same := rxByteStep_of_waitAck (s := s.popped (List.replicate tail.length .rxByte ++ rest)) wait source
    rw [same] at first
    rw [List.length_cons, List.replicate_succ, List.cons_append]
    exact (run_succ_of_next first).trans ((run_succ_of_next first').symm.trans opened)
  · exact step_of_rxFrame (s := s.popped (.rxFrame :: rest)) ⟨rfl, inv.codes⟩ wait source nonempty

/-! ### Datagrams (20_memory R223, 10_state R103) -/

/-- Settles O32. -/
theorem datagramsWaitInOrder : Obligations.DatagramsWaitInOrder := by
  intro s f rest facing
  rw [step_of_facing facing]
  refine congrArg Host.Outcome.next ?_
  by_cases empty : f = []
  · rw [rxDatagramStep, if_pos empty, if_pos (List.length_eq_zero_iff.2 empty), List.append_nil]
    rfl
  · rw [rxDatagramStep, if_neg empty, if_neg (mt List.length_eq_zero_iff.1 empty)]
    rfl

end Sys2Proof.Machine
end

section
/-!
Ticks that count, that go back N and that fail the session (42_arq_events R610, R611, R630, R641); the idle block
(60_exceptions R853), and the fault states (93_implementation_defined U15, U16).
-/
namespace Sys2Proof.Machine

/-! ### Ticks -/

/-- A tick that expires no attempt is the tick of the timers (42_arq_events R611). -/
theorem tickStep_of_notExpired {s : State}
    (waits : ¬ (s.st = .waitAck ∧ s.cfg.ackWait.toNat ≤ min (s.timers.attemptCnt.toNat + 1) 65535)) :
    tickStep s = tickTimers s := by
  have alive : attemptExpired (tickTimers s) ≠ true := by
    intro expired
    have wait : s.st = .waitAck := ((attemptExpired_iff _).1 expired).1
    exact waits ⟨wait, (attemptExpired_tickTimers_iff wait).1 expired⟩
  rw [tickStep, if_neg alive]

/-- Settles O33. -/
theorem tickCountsTheTimers : Obligations.TickCountsTheTimers := by
  intro s rest facing waits
  have counted : step s = .next (tickTimers (s.popped rest)) := by
    rw [step_of_facing facing]
    exact congrArg Host.Outcome.next (tickStep_of_notExpired (s := s.popped rest) waits)
  refine ⟨satSucc s.timers.sessionCnt, (tickTimers (s.popped rest)).timers.attemptCnt, counted, satSucc_toNat _,
    fun ready => ?_, fun wait rx => ?_⟩
  · have open_port : (s.popped rest).rxReady = true := (rxReady_eq_true_iff _).2 ready
    rw [tickTimers_timers_attemptCnt, if_pos open_port]
    exact satSucc_toNat _
  · have closed_port : ¬ (s.popped rest).rxReady = true := fun ready =>
      ((rxReady_eq_true_iff _).1 ready).elim wait rx
    rw [tickTimers_timers_attemptCnt, if_neg closed_port]
    rfl

/-- Settles O34: below the bound an expiry retransmits, and a frame is outstanding by the invariant. -/
theorem expiryGoesBackN : Obligations.ExpiryGoesBackN := by
  intro s rest inv next wait expires below
  have outstanding : s.sess.fifo ≠ [] := fifo_ne_nil_of_looping inv (.inl wait)
  refine ⟨outstanding, satSucc s.timers.attemptCnt, satSucc_toNat _, ?_⟩
  have expired : attemptExpired (tickTimers (s.popped rest)) = true :=
    (attemptExpired_tickTimers_iff (s := s.popped rest) wait).2 expires
  have short : (tickTimers (s.popped rest)).timers.sessionCnt.toNat < s.cfg.giveup.toNat :=
    (satSucc_toNat s.timers.sessionCnt).trans_lt below
  rw [step_of_facing ⟨next, inv.codes⟩, ← attemptCnt_tickTimers_of_waitAck (s := s) wait]
  refine congrArg Host.Outcome.next ?_
  rcases tickStep_spec (s.popped rest) with ⟨alive, -⟩ | ⟨-, -, goesBack⟩ | ⟨-, bound, -⟩
  · exact absurd (alive.symm.trans expired) Bool.false_ne_true
  · rw [goesBack, retransmit_of_fifo_ne_nil (s := tickTimers (s.popped rest)) outstanding]
    rfl
  · exact absurd short (Nat.not_lt.2 bound)

/-- Settles O35: a giveup in a waiting state, under FATAL. -/
theorem fatalGiveupFailsTheSession : Obligations.FatalGiveupFailsTheSession := by
  intro s rest facing wait policy expires bound
  refine ⟨satSucc s.timers.sessionCnt, satSucc s.timers.attemptCnt, satSucc_toNat _, satSucc_toNat _, ?_⟩
  rw [step_of_giveup facing wait expires bound]
  rcases giveUp_spec (tickTimers (s.popped rest)) with ⟨-, fails⟩ | ⟨drop, -⟩ | ⟨retry, -⟩
  · rw [fails, ← attemptCnt_tickTimers_of_waitAck (s := s) wait]
    rfl
  · exact absurd (policy.symm.trans drop) (by decide)
  · exact absurd (policy.symm.trans retry) (by decide)

/-! ### The idle block (60_exceptions R853) -/

/-- Settles O51: each port and the codec are closed in IDLE, and a tick there expires nothing. -/
theorem idleBlockOnlyCountsTicks : Obligations.IdleBlockOnlyCountsTicks := by
  intro s e rest legal idle
  refine ⟨fun none => ?_, fun next port => ?_, fun next => ?_⟩
  · have noFault : s.illegal? = Option.none := legal
    rw [step_alone s none, runAlone, noFault]
    exact congrArg Host.Outcome.next (codecStep_of_not_codec s (by simp [idle]))
  · have st : (s.popped rest).st = .idle := idle
    have closed : (s.popped rest).emitting = false := (emitting_eq_false_iff _).2 (by simp [st])
    rw [step_of_facing ⟨next, legal⟩]
    simp only [List.mem_cons, List.not_mem_nil, or_false] at port
    rcases port with rfl | rfl | rfl | rfl | rfl
    · exact congrArg Host.Outcome.next (txByteStep_of_closed closed)
    · exact congrArg Host.Outcome.next (txFrameStep_of_closed closed)
    · exact congrArg Host.Outcome.next (rxByteStep_of_closed (by simp [st]) (by simp [st]))
    · exact congrArg Host.Outcome.next (rxFrameStep_of_closed (by simp [st]))
    · exact congrArg Host.Outcome.next (codecStep_of_not_codec _ (by simp [st]))
  · obtain ⟨c, a, counted, session, -, attempt⟩ :=
      tickCountsTheTimers s rest ⟨next, legal⟩ (fun h => by simp [idle] at h)
    refine ⟨c, session, ?_⟩
    rw [counted, attempt (by simp [idle]) (by simp [idle])]

/-! ### Fault states (93_implementation_defined U15, U16) -/

theorem step_of_fault {s : State} {e : Event} {rest : List Event} {f : Fault} (next : s.inputs = e :: rest)
    (noReset : e.isReset = false) (fault : s.illegal? = some f) : step s = .fault f := by
  have fault' : State.illegal? { s with inputs := rest } = some f := fault
  simp only [step_of_inputs s e rest next, runEvent, noReset, Bool.false_eq_true, if_false, fault']

/-- Settles O52. -/
theorem faultStatesStop : Obligations.FaultStatesStop := by
  intro s e rest next noReset
  refine ⟨fun unused => step_of_fault next noReset (if_pos unused), fun code6 code7 unused => ?_⟩
  refine step_of_fault next noReset ?_
  rw [State.illegal?, if_neg (not_or.2 ⟨code6, code7⟩), if_pos unused]

end Sys2Proof.Machine
end

section
/-!
The host bus (43_host_bus R700 to R706, 20_memory R204 to R212): the command write, what each address reads, the byte
lanes of the buffers, reads while a codec command runs, and the writes that store a field.
-/
namespace Sys2Proof.Machine

/-! ### Command writes -/

/-- Settles O11. -/
theorem stepRunsTheDecodedCommand : Obligations.StepRunsTheDecodedCommand := by
  intro s a w i rest selected decoded
  have runs : ∀ u : State, hostWrite a w u = exec i u := fun u =>
    (hostWrite_of_cmd selected w u).trans (writeCmd_of_command decoded u)
  refine ⟨fun facing => (step_of_facing facing).trans (runs _), fun facing => ?_⟩
  obtain ⟨t, next, -⟩ := issueStep_exec i (s.popped rest)
  exact ⟨t, next, answersWrite_of_hostWrite facing (.inr rfl) ((runs _).trans next)⟩

/-! ### The buffer windows -/

/-- An address between `0x400` and `0xBFF` selects the word of a window whose first byte is the address's own,
rounded down (20_memory R203, R206, R207). -/
theorem target_of_buffer {a : BitVec 12} (low : 0x400 ≤ a.toNat) (high : a.toNat < 0xC00) :
    (a.toNat < 0x800 ∧ ∃ k, target a = .txbuf k ∧ txbufWordAddr k = a.toNat / 4 * 4)
    ∨ (0x800 ≤ a.toNat ∧ ∃ k, target a = .cbuf k ∧ cbufWordAddr k = a.toNat / 4 * 4) := by
  have index := wordIndex_eq_div a
  have h1 : ¬ wordIndex a < 0x100 := by omega
  unfold target
  simp only [h1, if_false]
  by_cases txbuf : a.toNat < 0x800
  · have h2 : wordIndex a < 0x200 := by omega
    refine .inl ⟨txbuf, _, if_pos h2, ?_⟩
    simp only [txbufWordAddr, txbufBase]
    omega
  · have h2 : ¬ wordIndex a < 0x200 := by omega
    have h3 : wordIndex a < 0x300 := by omega
    refine .inr ⟨Nat.not_lt.1 txbuf, wordIndex a - 0x200, by simp only [h2, h3, if_false, if_true], ?_⟩
    simp only [cbufWordAddr, cbufBase]
    omega

theorem hostWrite_of_buffer {a : BitVec 12} (low : 0x400 ≤ a.toNat) (high : a.toNat < 0xC00) (v : Word) (s : State) :
    hostWrite a v s = .next (writeBuffer (a.toNat / 4 * 4) v s) := by
  rcases target_of_buffer low high with ⟨-, k, selected, address⟩ | ⟨-, k, selected, address⟩ <;>
    simp only [hostWrite, selected, address]

/-- Lane `j` of a word. -/
def lane (v : Word) (j : Nat) : Byte := v.extractLsb' (8 * j) 8

theorem lane_eq_ofNat (v : Word) (j : Nat) : lane v j = BitVec.ofNat 8 (v.toNat / 256 ^ j) := by
  apply BitVec.eq_of_toNat_eq
  rw [lane, BitVec.extractLsb'_toNat, Nat.shiftRight_eq_div_pow, BitVec.toNat_ofNat, Nat.pow_mul]

theorem storeWord_eq_lanes (m : Memory) (a : Nat) (v : Word) :
    Memory.storeWord m a v = Memory.storeBytes m a ((List.range 4).map (lane v)) := rfl

/-- A word written goes to its four lanes, where their bytes exist. -/
theorem load_storeWord_lane (m : Memory) (a : Nat) (v : Word) {j : Nat} (hj : j < 4) :
    Memory.load (Memory.storeWord m a v) (a + j) = if bufferByteExists (a + j) then lane v j else 0#8 := by
  have length : ((List.range 4).map (lane v)).length = 4 := rfl
  split
  · rename_i exists_
    rw [storeWord_eq_lanes, Memory.load_storeBytes_inside _ m a j (length ▸ hj) exists_, List.getElem_map,
      List.getElem_range]
  · rename_i absent
    exact Memory.load_absent _ _ (Bool.eq_false_iff.2 absent)

/-- Settles O40: in an idle block the write is the store of a word. -/
theorem bufferWritesGoToTheirLanes : Obligations.BufferWritesGoToTheirLanes := by
  intro s h a v rest facing writes notBusy low high
  have idle : (s.popped rest).st = .idle := (busy_eq_false_iff s).1 notBusy
  refine ⟨Memory.storeWord s.mem (a.toNat / 4 * 4) v, answersWrite_of_hostWrite facing writes ?_, fun j hj => ?_,
    fun b outside => Memory.load_storeBytes_outside _ _ _ _ outside⟩
  · rw [hostWrite_of_buffer low high]
    rcases writeBuffer_spec (a.toNat / 4 * 4) v (s.popped rest) with ⟨busy, -⟩ | ⟨-, written⟩
    · exact absurd idle busy
    · rw [written]
      rfl
  · rw [load_storeWord_lane _ _ _ hj, lane_eq_ofNat]

/-- The word of four bytes, by its lanes. -/
theorem lanes_of_append (b : Nat → Byte) {j : Nat} (hj : j < 4) :
    (b 3 ++ b 2 ++ b 1 ++ b 0).toNat / 256 ^ j % 256 = (b j).toNat := by
  have b0 := (b 0).isLt
  have b1 := (b 1).isLt
  have b2 := (b 2).isLt
  have b3 := (b 3).isLt
  simp only [toNat_append_eq_add]
  interval_cases j <;> omega

theorem readValue_of_not_codec {s : State} (codec : s.st ≠ .codec) (t : Target) : readValue s t = readTarget s t := by
  have noDraw : drawsFree s t = false := by simp [drawsFree, codec]
  rw [readValue, noDraw]
  rfl

/-- Settles O41: both windows read the word at the address's own four bytes. -/
theorem bufferReadsShowTheirLanes : Obligations.BufferReadsShowTheirLanes := by
  intro s a rest facing codec low high
  refine ⟨_, step_of_read facing, fun j hj => ?_⟩
  have word : readValue (s.popped rest) (target a) = Memory.loadWord s.mem (a.toNat / 4 * 4) := by
    rw [readValue_of_not_codec (s := s.popped rest) codec]
    rcases target_of_buffer low high with ⟨-, k, selected, address⟩ | ⟨-, k, selected, address⟩ <;>
      rw [selected, ← address] <;> rfl
  rw [hostRead_rdata, word]
  exact lanes_of_append (fun i => Memory.load s.mem (a.toNat / 4 * 4 + i)) hj

/-- A field of at most 32 bits reads as its number, the bits above it 0. -/
theorem toNat_setWidth_32 {n : Nat} (x : BitVec n) (h : n ≤ 32) : (x.setWidth 32).toNat = x.toNat :=
  BitVec.toNat_setWidth_of_le h

/-! ### Reads while a codec command runs (43_host_bus R701) -/

/-- Below `CBUF` only the three codec registers can be shown half done. -/
theorem shownHalfDone_eq_false {a : BitVec 12} (low : a.toNat < 0x800) (h22 : a.toNat / 4 ≠ 22)
    (h23 : a.toNat / 4 ≠ 23) (h24 : a.toNat / 4 ≠ 24) : shownHalfDone (target a) = false := by
  have rows : ∀ k < 25, k ≠ 22 → k ≠ 23 → k ≠ 24 → (regMap[k]?).all (fun r => !shownHalfDone (.reg r)) = true := by
    decide
  by_cases inMap : a.toNat / 4 < 25
  · obtain ⟨r, row⟩ : ∃ r, regMap[a.toNat / 4]? = some r := ⟨_, List.getElem?_eq_getElem inMap⟩
    have shown := rows _ inMap h22 h23 h24
    rw [row] at shown
    rw [target_eq_reg row]
    simpa using shown
  · by_cases gap : a.toNat / 4 < 0x100
    · rw [target_eq_reserved (.inl ⟨by omega, gap⟩)]
      rfl
    · rcases target_of_buffer (a := a) (by omega) (by omega) with ⟨-, k, selected, -⟩ | ⟨high, -⟩
      · rw [selected]
        rfl
      · omega

theorem codecStep_mem {s : State} (codec : s.st = .codec) : (codecStep s).mem = (writeCodecResults s).mem := by
  rw [codecStep, if_pos codec]
  rfl

theorem codecStep_codec {s : State} (codec : s.st = .codec) :
    (codecStep s).codec = { (writeCodecResults s).codec with job := none } := by
  rw [codecStep, if_pos codec]
  rfl

theorem drawsFree_of_codec {s : State} (codec : s.st = .codec) (t : Target) : drawsFree s t = shownHalfDone t := by
  rw [drawsFree, decide_eq_true codec, Bool.true_and]

/-- A register shown half done reads as before the command or as after it. -/
theorem readValue_of_halfDone_reg {s : State} (codec : s.st = .codec) {r : Reg}
    (shown : shownHalfDone (.reg r) = true) :
    readValue s (.reg r) = readReg s r ∨ readValue s (.reg r) = readReg (writeCodecResults s) r := by
  have value : readValue s (.reg r) = if Config.codecReadsNew s.freeCount 0 then readReg (writeCodecResults s) r
      else readReg s r := by
    rw [readValue, drawsFree_of_codec codec, shown]
    rfl
  rw [value]
  split
  · exact .inr rfl
  · exact .inl rfl

/-- The byte that lane `j` of word `k` of `CBUF` shows while a codec command runs, at the `n`th free value. -/
def shownByte (n : Nat) (s : State) (k j : Nat) : Byte :=
  if Config.codecReadsNew n j then Memory.load (writeCodecResults s).mem (cbufWordAddr k + j)
  else Memory.load s.mem (cbufWordAddr k + j)

theorem shownByte_eq (n : Nat) (s : State) (k j : Nat) :
    shownByte n s k j = Memory.load s.mem (cbufWordAddr k + j)
    ∨ shownByte n s k j = Memory.load (writeCodecResults s).mem (cbufWordAddr k + j) := by
  unfold shownByte
  split
  · exact .inr rfl
  · exact .inl rfl

/-- Each lane of a `CBUF` word shown half done is the byte before the command or the byte after it. -/
theorem readValue_of_cbuf {s : State} (codec : s.st = .codec) (k : Nat) {j : Nat} (hj : j < 4) :
    (readValue s (.cbuf k)).toNat / 256 ^ j % 256 = (Memory.load s.mem (cbufWordAddr k + j)).toNat
    ∨ (readValue s (.cbuf k)).toNat / 256 ^ j % 256
        = (Memory.load (writeCodecResults s).mem (cbufWordAddr k + j)).toNat := by
  have value : readValue s (.cbuf k) = shownByte s.freeCount s k 3 ++ shownByte s.freeCount s k 2
      ++ shownByte s.freeCount s k 1 ++ shownByte s.freeCount s k 0 := by
    rw [readValue, drawsFree_of_codec codec]
    rfl
  rw [value, lanes_of_append (shownByte s.freeCount s k) hj]
  exact (shownByte_eq s.freeCount s k j).imp (congrArg BitVec.toNat) (congrArg BitVec.toNat)

theorem writeCodecResults_popped (s : State) (rest : List Event) :
    writeCodecResults (s.popped rest) = (writeCodecResults s).popped rest := by
  rcases job : s.codec.job with _ | (f | ⟨result, seqWord⟩) <;> simp only [writeCodecResults, State.popped, job]

/-- A register shown half done, in the step of a read and against the codec's own step. -/
theorem rdata_of_halfDone_reg {s : State} {a : BitVec 12} {rest : List Event} {r : Reg} (codec : s.st = .codec)
    (selected : target a = .reg r) (shown : shownHalfDone (.reg r) = true) :
    (hostRead a (s.popped rest)).rdata = readReg s r
    ∨ (hostRead a (s.popped rest)).rdata = readReg (writeCodecResults s) r := by
  have old : readReg (s.popped rest) r = readReg s r := by cases r <;> rfl
  have new : readReg ((writeCodecResults s).popped rest) r = readReg (writeCodecResults s) r := by cases r <;> rfl
  rw [hostRead_rdata, selected, ← old, ← new, ← writeCodecResults_popped]
  exact readValue_of_halfDone_reg (s := s.popped rest) codec shown

/-- Settles O42: by what the address selects. -/
theorem codecReadsShowOldOrNew : Obligations.CodecReadsShowOldOrNew := by
  intro s a rest facing codec
  have codec' : (s.popped rest).st = .codec := codec
  rw [codecStep_mem codec, codecStep_codec codec]
  refine ⟨_, step_of_read facing, fun j hj low high => ?_, fun k => ?_, fun k => ?_, fun k => ?_,
    fun low h22 h23 h24 => ?_⟩
  · rcases target_of_buffer (a := a) (by omega) high with ⟨below, -⟩ | ⟨-, k, selected, address⟩
    · omega
    · have lanes := readValue_of_cbuf codec' k hj
      rw [writeCodecResults_popped] at lanes
      rw [hostRead_rdata, selected, ← address]
      exact lanes
  · have selected : target a = .reg .cbufLen := target_eq_reg (by rw [k]; rfl)
    exact (rdata_of_halfDone_reg codec selected rfl).imp (fun old => by rw [old]; exact toNat_setWidth_32 _ (by decide))
      fun new => by rw [new]; exact toNat_setWidth_32 _ (by decide)
  · exact rdata_of_halfDone_reg codec (target_eq_reg (by rw [k]; rfl)) rfl
  · exact rdata_of_halfDone_reg codec (target_eq_reg (by rw [k]; rfl)) rfl
  · have noDraw : drawsFree (s.popped rest) (target a) = false := by
      rw [drawsFree_of_codec codec', shownHalfDone_eq_false low h22 h23 h24]
    have same : readTarget (s.popped rest) (target a) = readTarget s (target a) := by
      cases target a with
      | reg r => cases r <;> rfl
      | _ => rfl
    rw [hostRead_rdata, hostRead_freeCount, readValue, noDraw]
    exact ⟨same, rfl⟩

/-! ### What each address reads (20_memory R204) -/

theorem stCode_toNat (st : SeqState) : st.code.toNat = stNumber st := by
  cases st <;> rfl

theorem policyCode_toNat (p : GiveupPolicy) : p.code.toNat = policyNumber p := by
  cases p <;> rfl

/-- `STATUS`, field by field (10_state R167). -/
theorem statusWord_toNat (s : State) : s.statusWord.toNat
    = s.busy.toNat + 2 * s.sess.failed.toNat + 4 * s.sess.cfgLocked.toNat + 8 * s.sess.lastSent.toNat
      + 16 * (decide (s.sess.curFlag = .last)).toNat + 256 * stNumber s.st + 4096 * s.err.toNat := by
  have word : s.statusWord = 0#16 ++ s.err ++ 0#1 ++ s.st.code ++ 0#3 ++ BitVec.ofBool (decide (s.sess.curFlag = .last))
      ++ BitVec.ofBool s.sess.lastSent ++ BitVec.ofBool s.sess.cfgLocked ++ BitVec.ofBool s.sess.failed
      ++ BitVec.ofBool s.busy := rfl
  rw [word]
  simp only [toNat_append_eq_add, BitVec.toNat_ofBool, BitVec.toNat_ofNat, stCode_toNat]
  omega

theorem paramWord_toNat (s : State) : (paramWord s).toNat = 996 * 65536 + s.cfg.wmax.toNat :=
  toNat_append_eq_add (BitVec.ofNat 16 996) s.cfg.wmax

/-- `HEAD_SEQ` and `FIFO_COUNT` add up to `NEXT_SEQ` (10_state R123). -/
theorem headSeq_add_fifoLen (s : State) : (s.headSeq.toNat + s.fifoLen) % 65536 = s.sess.nextSeq.toNat := by
  have := s.sess.nextSeq.isLt
  rw [State.headSeq, BitVec.toNat_sub, BitVec.toNat_ofNat]
  omega

/-- Settles O39: register by register, each value as the number of its field or fields. -/
theorem registerReadValues : Obligations.RegisterReadValues := by
  intro s a rest facing codec
  refine ⟨_, step_of_read facing, ?_⟩
  have value : ∀ {t : Target}, target a = t →
      (hostRead a (s.popped rest)).rdata = readTarget (s.popped rest) t := fun selected => by
    rw [hostRead_rdata, selected, readValue_of_not_codec (s := s.popped rest) codec]
  have reads : ∀ {k : Nat} {r : Reg}, regMap[k]? = some r → a.toNat / 4 = k →
      (hostRead a (s.popped rest)).rdata = readReg s r := fun {k r} row index => by
    rw [value (target_eq_reg (index ▸ row))]
    cases r <;> rfl
  have field : ∀ {k n : Nat} {r : Reg} {x : BitVec n}, regMap[k]? = some r → readReg s r = x.setWidth 32 → n ≤ 32 →
      a.toNat / 4 = k → (hostRead a (s.popped rest)).rdata.toNat = x.toNat := fun row shown narrow index => by
    rw [reads row index, shown, toNat_setWidth_32 _ narrow]
  have reserved : (25 ≤ a.toNat / 4 ∧ a.toNat / 4 < 0x100) ∨ 0x300 ≤ a.toNat / 4 →
      (hostRead a (s.popped rest)).rdata.toNat = 0 := fun gap => by
    rw [value (target_eq_reserved gap)]
    rfl
  dsimp only
  refine ⟨fun k => ?_, fun k => ?_, fun k => ?_, field (r := .windowSize) rfl rfl (by decide),
    field (r := .ackWait) rfl rfl (by decide), field (r := .giveup) rfl rfl (by decide), fun k => ?_, fun k => ?_,
    field (r := .irqEnable) rfl rfl (by decide), field (r := .irqPending) rfl rfl (by decide),
    field (r := .nextSeq) rfl rfl (by decide), field (r := .oldestSeq) rfl rfl (by decide), fun k => ?_, fun k => ?_,
    fun k => ?_, field (r := .sessionCnt) rfl rfl (by decide), field (r := .attemptCnt) rfl rfl (by decide),
    reads (r := .retxCount) rfl, reads (r := .ackCount) rfl, reads (r := .badCsumCount) rfl,
    reads (r := .malformedCount) rfl, reads (r := .truncCount) rfl, field (r := .cbufLen) rfl rfl (by decide),
    reads (r := .decResult) rfl, reads (r := .decSeq) rfl, fun low high => reserved (.inl ⟨low, high⟩),
    fun high => reserved (.inr high)⟩
  · rw [reads (r := .id) rfl k]
    rfl
  · rw [reads (r := .param) rfl k]
    exact paramWord_toNat s
  · exact (field (r := .ctrl) rfl rfl (by decide) k).trans (policyCode_toNat s.cfg.policy)
  · rw [reads (r := .cmd) rfl k]
    rfl
  · rw [reads (r := .status) rfl k]
    exact statusWord_toNat s
  · rw [reads (r := .inFlight) rfl k]
    exact BitVec.toInt_signExtend_of_le (by decide)
  · exact (field (r := .fifoCount) rfl rfl (by decide) k).trans (BitVec.toNat_ofNat ..)
  · rw [field (r := .headSeq) rfl rfl (by decide) k]
    exact ⟨headSeq_add_fifoLen s, s.headSeq.isLt⟩

/-! ### Writes that store a field -/

theorem policyNumber_of_ofField? :
    ∀ f : BitVec 2, (GiveupPolicy.ofField? f).all (fun p => policyNumber p = f.toNat) = true := by
  decide

/-- Settles O44: each register's write, where it is not one of the ignored ones. -/
theorem configWritesStoreTheirField : Obligations.ConfigWritesStoreTheirField := by
  intro s h a v rest facing writes stored
  have stores : ∀ {r : Reg} {t : State}, target a = .reg r → r ≠ .cmd → writeReg r v (s.popped rest) = t →
      answersWrite h (step s) t := fun selected other written =>
    answersWrite_of_hostWrite facing writes (written ▸ hostWrite_of_reg selected other v _)
  refine ⟨fun selected => ?_, fun selected => ?_, fun selected => ?_, fun selected => ?_, fun selected => ?_,
    fun selected => ?_⟩ <;> rw [selected] at stored
  · obtain ⟨-, p, field, written⟩ := (writeCtrl_spec v (s.popped rest)).resolve_left fun h => stored h.1
    have number := policyNumber_of_ofField? (v.extractLsb' 0 2)
    rw [field] at number
    refine ⟨p, ?_, stores selected (by decide) written⟩
    rw [of_decide_eq_true number, BitVec.extractLsb'_toNat, Nat.shiftRight_zero]
  · exact ⟨_, BitVec.extractLsb'_toNat .., stores selected (by decide)
      ((writeWindowSize_spec v (s.popped rest)).resolve_left fun h => stored h.1).2⟩
  · exact ⟨_, BitVec.extractLsb'_toNat .., stores selected (by decide)
      ((writeAckWait_spec v (s.popped rest)).resolve_left fun h => stored h.1).2⟩
  · exact ⟨_, BitVec.extractLsb'_toNat .., stores selected (by decide) (if_neg stored)⟩
  · exact ⟨_, BitVec.extractLsb'_toNat .., stores selected (by decide) (if_neg stored)⟩
  · exact ⟨_, BitVec.extractLsb'_toNat .., stores selected (by decide) rfl⟩

/-- Settles O45: the pending bits are masked with the complement of the low bits of the word. -/
theorem pendingBitsClearOnWriteOne : Obligations.PendingBitsClearOnWriteOne := by
  intro s h a v rest facing writes selected
  refine ⟨_, answersWrite_of_hostWrite facing writes (hostWrite_of_reg selected (by decide) v _), fun i hi => ?_⟩
  rw [BitVec.getLsbD_and, BitVec.getLsbD_not, BitVec.getLsbD_extractLsb', decide_eq_true hi, Bool.true_and,
    Bool.true_and, Nat.zero_add]
  rfl

end Sys2Proof.Machine
end

section
/-!
Reset, alone or in a cycle (70_reset R900, R902, R903), and the order of the agents in the cycle in which a command or
an inbound frame completes (60_exceptions R823).
-/
namespace Sys2Proof.Machine

/-! ### Reset -/

theorem step_of_reset {s : State} {e : Event} {rest : List Event} (next : s.inputs = e :: rest)
    (reset : e.isReset = true) : step s = .next (resetBlock (s.popped rest)) := by
  rw [step_of_inputs s e rest next, runEvent_of_reset e _ reset, eventEffect_of_isReset reset]
  rfl

theorem statusWord_resetBlock (s : State) : (resetBlock s).statusWord = 0#32 := by
  apply BitVec.eq_of_toNat_eq
  rw [statusWord_toNat]
  rfl

theorem irqLine_resetBlock (s : State) : (resetBlock s).irqLine = false := by
  rw [State.irqLine, resetBlock_irq]
  decide

theorem headSeq_resetBlock (s : State) : (resetBlock s).headSeq = 0#16 := by
  rw [State.headSeq, State.fifoLen, resetBlock_sess]
  decide

/-- Settles O50: the reset values are those of `State.reset`; only the buffers depend on the state before. -/
theorem resetSetsEveryStateElement : Obligations.ResetSetsEveryStateElement := by
  intro s e rest next reset
  refine ⟨_, step_of_reset next reset, rfl, rfl, statusWord_resetBlock _, rfl, rfl, irqLine_resetBlock _, rfl, rfl,
    rfl, rfl, rfl, rfl, rfl, rfl, rfl, headSeq_resetBlock _, rfl, rfl, rfl, rfl, rfl, rfl, rfl, rfl, rfl,
    fun codec => ?_, fun a => ?_, rfl, rfl, rfl, rfl⟩
  · have noFrame : (s.popped rest).encoding? = none := encoding?_of_not_codec _ codec
    rw [resetBlock_mem, resetBlock_freeCount, abandonedMem, noFrame]
    exact ⟨rfl, rfl⟩
  · rw [resetBlock_mem]
    rcases abandonedMem_spec (s.popped rest) with ⟨-, same⟩ | ⟨encodes, bytes⟩
    · exact .inl (by rw [same]; rfl)
    · obtain ⟨f, encoding⟩ := Option.isSome_iff_exists.1 encodes
      have codec : s.st = .codec := ((encoding?_eq_some_iff _ f).1 encoding).1
      have written : (writeCodecResults (s.popped rest)).mem = (codecStep s).mem := by
        rw [writeCodecResults_popped, codecStep_mem codec]
        rfl
      rw [← written]
      exact bytes a

/-! ### The cycle in which a codec command completes -/

theorem codecStep_completes {s : State} (codec : s.st = .codec) :
    (codecStep s).st = .idle ∧ (codecStep s).irq.pending = s.irq.pending ||| doneBit
      ∧ (codecStep s).sess = s.sess ∧ (codecStep s).err = 0#4 := by
  rw [codecStep, if_pos codec, writeCodecResults_frame]
  exact ⟨rfl, rfl, rfl, rfl⟩

/-- A cycle whose host access leaves the codec command in place ends it, and then ticks in an idle block. -/
theorem cycleStep_of_codecGo {s u : State} {c : Cycle} (rst : c.rst = false) (go : c.codecGo = true)
    (codec : s.st = .codec) (accessed : cycleHost c.host s = .next u) (codec_u : u.st = .codec) :
    ∃ t, cycleStep c s = .next t ∧ t.st = .idle ∧ t.irq.pending = u.irq.pending ||| doneBit
      ∧ t.sess = u.sess ∧ t.err = 0#4 := by
  obtain ⟨u', accessed', -, answers⟩ := cycleStep_of_not_rst rst s
  cases accessed.symm.trans accessed'
  have sequenced : cycleSequencer s.st c u = codecStep u := by simp only [codec, cycleSequencer, go, if_true]
  obtain ⟨idle, completed⟩ := codecStep_completes codec_u
  have ticks : tickStep (codecStep u) = tickTimers (codecStep u) := tickStep_of_notExpired fun h => by simp [idle] at h
  rw [sequenced, ticks] at answers
  refine ⟨_, answers, ?_⟩
  split
  · exact ⟨idle, completed⟩
  · exact ⟨idle, completed⟩

/-- A write cycle is the write, but for `hb_rdata` and the count of free values (43_host_bus R700). -/
theorem hostAccess_of_writes {h : HostAccess} {a : BitVec 12} {v : Word} {s t : State} (writes : h.writes a v)
    (written : hostWrite a v s = .next t) :
    ∃ u, hostAccess h s = .next u ∧ u.st = t.st ∧ u.irq = t.irq ∧ u.sess = t.sess := by
  rcases writes with rfl | rfl
  · exact ⟨t, written, rfl, rfl, rfl⟩
  · exact ⟨freeRdata t, by rw [hostAccess, written, andThen_next], rfl, rfl, rfl⟩

/-- In the cycle in which a codec command ends, the write comes first and leaves its pending bits to the end. -/
theorem cycle_of_codec_write {s v : State} {c : Cycle} {h : HostAccess} {a : BitVec 12} {w : Word} {rest : List Event}
    (facing : s.facing (.cycle c) rest) (rst : c.rst = false) (go : c.codecGo = true) (codec : s.st = .codec)
    (host : c.host = some h) (writes : h.writes a w) (written : hostWrite a w (s.popped rest) = .next v)
    (busy : v.st = .codec) (sess : v.sess = s.sess) :
    ∃ t, step s = .next t ∧ t.st = .idle ∧ t.irq.pending = v.irq.pending ||| doneBit ∧ t.sess = s.sess
      ∧ t.err = 0#4 := by
  obtain ⟨u, accessed, st, irq, session⟩ := hostAccess_of_writes writes written
  have inCycle : cycleHost c.host (s.popped rest) = .next u := by rw [host]; exact accessed
  rw [step_of_facing facing, ← irq, ← sess, ← session]
  exact cycleStep_of_codecGo (s := s.popped rest) rst go codec inCycle (st.trans busy)

/-! ### The block does not read the steps to come -/

theorem loopTest_popped (s : State) (rest : List Event) : loopTest (s.popped rest) = (loopTest s).popped rest := by
  rcases loopTest_spec s with ⟨holds, next⟩ | ⟨leaves, last, next⟩ | ⟨leaves, data, next⟩ <;> rw [next]
  · exact if_pos holds
  · exact (if_neg (by rw [show loopHolds (s.popped rest) = loopHolds s from rfl, leaves]; decide)).trans (if_pos last)
  · exact (if_neg (by rw [show loopHolds (s.popped rest) = loopHolds s from rfl, leaves]; decide)).trans (if_neg data)

theorem afterAck_popped (s : State) (rest : List Event) : afterAck (s.popped rest) = (afterAck s).popped rest := by
  rcases afterAck_spec s with ⟨last, notSent, next⟩ | ⟨other, next⟩ <;> rw [next]
  · exact if_pos ⟨last, notSent⟩
  · exact (if_neg other).trans (loopTest_popped s rest)

theorem endRxFrame_of_short {s : State} (short : s.rxr.len < 4) : endRxFrame s
    = startAttempt (s.frameEnded { s.counters with malformed := s.counters.malformed + 1#32 }) := by
  rcases endRxFrame_spec s with ⟨-, next⟩ | ⟨long, -, -⟩ | ⟨long, -, -⟩
  · exact next
  · omega
  · omega

theorem endRxFrame_of_mismatch {s : State} (long : 4 ≤ s.rxr.len) (differ : s.rxr.b0 ≠ s.rxr.sum) : endRxFrame s
    = startAttempt (s.frameEnded { s.counters with badCsum := s.counters.badCsum + 1#32 }) := by
  rcases endRxFrame_spec s with ⟨short, -⟩ | ⟨-, -, next⟩ | ⟨-, same, -⟩
  · omega
  · exact next
  · exact absurd same differ

theorem endRxFrame_of_match {s : State} (long : 4 ≤ s.rxr.len) (same : s.rxr.b0 = s.rxr.sum) : endRxFrame s
    = afterAck (dropAcked s.rxr.seq (s.frameEnded { s.counters with ack := s.counters.ack + 1#32 })) := by
  rcases endRxFrame_spec s with ⟨short, -⟩ | ⟨-, differ, -⟩ | ⟨-, -, next⟩
  · omega
  · exact absurd same differ
  · exact next

theorem endRxFrame_popped (s : State) (rest : List Event) :
    endRxFrame (s.popped rest) = (endRxFrame s).popped rest := by
  rcases Nat.lt_or_ge s.rxr.len 4 with short | long
  · rw [endRxFrame_of_short short, endRxFrame_of_short (s := s.popped rest) short]
    rfl
  · by_cases same : s.rxr.b0 = s.rxr.sum
    · rw [endRxFrame_of_match long same, endRxFrame_of_match (s := s.popped rest) long same, ← afterAck_popped]
      rfl
    · rw [endRxFrame_of_mismatch long same, endRxFrame_of_mismatch (s := s.popped rest) long same]
      rfl

theorem byteTaken_popped (s : State) (x : Byte) (source : RxSource) (rest : List Event) :
    (s.popped rest).byteTaken x source = (s.byteTaken x source).popped rest := by
  by_cases wait : s.st = .waitAck <;> simp [State.byteTaken, openRxFrame, State.popped, wait]

theorem rxByteStep_popped (s : State) (rest : List Event) :
    rxByteStep (s.popped rest) = (rxByteStep s).popped rest := by
  by_cases ready : s.rxReady = true
  · have ready' : (s.popped rest).rxReady = true := ready
    have source : (s.popped rest).source = s.source := rfl
    rw [rxByteStep, if_pos ready', rxByteStep, if_pos ready, source]
    cases s.source.offer with
    | none => rfl
    | some offered =>
      obtain ⟨x, isLast, source⟩ := offered
      dsimp only
      rw [receiveByte_with_source, receiveByte_with_source, byteTaken_popped]
      cases isLast with
      | false => rfl
      | true => exact endRxFrame_popped _ rest
  · have ready' : ¬ (s.popped rest).rxReady = true := ready
    rw [rxByteStep, if_neg ready', rxByteStep, if_neg ready]

/-! ### The cycle in which an inbound frame completes -/

/-- Wherever the end of a frame leads to WAIT_ACK, an attempt has just started (42_arq_events R600, R605). -/
theorem attemptCnt_of_endRxFrame {s : State} (wait : (endRxFrame s).st = .waitAck) :
    (endRxFrame s).timers.attemptCnt = 0#16 := by
  have tested : ∀ u : State, (loopTest u).st = .waitAck → (loopTest u).timers.attemptCnt = 0#16 := fun u wait => by
    rcases loopTest_spec u with ⟨-, next⟩ | ⟨-, -, next⟩ | ⟨-, -, next⟩ <;> rw [next] at wait ⊢
    · rfl
    · cases wait
    · cases wait
  rcases endRxFrame_spec s with ⟨-, next⟩ | ⟨-, -, next⟩ | ⟨-, -, next⟩ <;> rw [next] at wait ⊢
  · rfl
  · rfl
  · rcases afterAck_spec (dropAcked s.rxr.seq (s.frameEnded { s.counters with ack := s.counters.ack + 1#32 })) with
      ⟨-, -, pushed⟩ | ⟨-, next⟩
    · cases (congrArg State.st pushed).symm.trans wait
    · exact (congrArg (·.timers.attemptCnt) next).trans (tested _ ((congrArg State.st next).symm.trans wait))

/-- The tick in the cycle of a frame's last byte finds the attempt just started, and expires it only under
`ACK_WAIT` = 1 (42_arq_events R611). -/
theorem tickStep_of_fresh_attempt {s : State} (wait : s.st = .waitAck) (fresh : s.timers.attemptCnt = 0#16)
    (long : 2 ≤ s.cfg.ackWait.toNat) : (tickStep s).st = .waitAck ∧ (tickStep s).timers.attemptCnt = 1#16 := by
  have notExpired : ¬ (s.st = .waitAck ∧ s.cfg.ackWait.toNat ≤ min (s.timers.attemptCnt.toNat + 1) 65535) := by
    rintro ⟨-, expired⟩
    rw [fresh] at expired
    have zero : (0#16).toNat = 0 := rfl
    omega
  rw [tickStep_of_notExpired notExpired, attemptCnt_tickTimers_of_waitAck wait, fresh]
  exact ⟨wait, rfl⟩

/-- Settles O49. -/
theorem completionCycleOrder : Obligations.CompletionCycleOrder := by
  intro s c rest inv next rst
  have facing : s.facing (.cycle c) rest := ⟨next, inv.codes⟩
  refine ⟨fun h a w codec go host writes => ⟨fun selected => ?_, fun selected => ?_⟩, fun wait valid tick host => ?_⟩
  · have busy : (s.popped rest).busy = true := (busy_eq_true_iff _).2 (show s.st ≠ .idle by simp [codec])
    have written : hostWrite a w (s.popped rest) = .next (overrun (s.popped rest)) :=
      (hostWrite_of_cmd selected w _).trans (writeCmd_of_busy w busy)
    obtain ⟨t, answers, idle, pending, sess, ok⟩ :=
      cycle_of_codec_write facing rst go codec host writes written codec rfl
    refine ⟨t, answers, idle, pending.trans ?_, sess, ok⟩
    rw [overrun_irq_pending, BitVec.or_assoc]
    rfl
  · have written := hostWrite_of_reg selected (by decide) w (s.popped rest)
    obtain ⟨t, answers, idle, pending, sess, ok⟩ :=
      cycle_of_codec_write facing rst go codec host writes written codec rfl
    refine ⟨t, answers, idle, ?_, sess, ok⟩
    rw [pending, BitVec.getLsbD_or]
    exact Bool.or_true _
  · have received : cycleStep c (s.popped rest) = .next (tickStep (rxByteStep (s.popped rest))) := by
      obtain ⟨u, accessed, -, answers⟩ := cycleStep_of_not_rst rst (s.popped rest)
      rw [host] at accessed
      cases accessed
      have sequenced : cycleSequencer (s.popped rest).st c (s.popped rest) = rxByteStep (s.popped rest) := by
        have st : (s.popped rest).st = s.st := rfl
        rw [st]
        rcases wait with h | h <;> simp only [h, cycleSequencer, valid, if_true]
      rw [answers, sequenced, if_pos tick]
    have inv_t : Inv (rxByteStep (s.popped (.tick :: rest))) :=
      (rxStep_rxByteStep (inv_popped inv _)).inv (inv_popped inv _)
    have afterByte : (rxByteStep (s.popped (.tick :: rest))).popped rest = rxByteStep (s.popped rest) := by
      rw [rxByteStep_popped, rxByteStep_popped]
      rfl
    have inputs : (rxByteStep (s.popped (.tick :: rest))).inputs = .tick :: rest := by
      rw [rxByteStep_popped]
      rfl
    refine ⟨rxByteStep (s.popped (.tick :: rest)), tickStep (rxByteStep (s.popped rest)),
      step_popped_cons inv.codes .rxByte (.tick :: rest), ?_, (step_of_facing facing).trans received, ?_⟩
    · rw [step_of_facing ⟨inputs, inv_t.codes⟩, afterByte]
      rfl
    · intro one waits
      obtain ⟨x, rest_eq⟩ := List.length_eq_one_iff.1 one
      have rx : s.st = .rx := inv.rx.source.2 (by simp [rest_eq])
      have source : s.source = { rest := [x], waiting := s.source.waiting } := by rw [← rest_eq]
      have ended : ∀ events, (rxByteStep (s.popped events)).st = .waitAck →
          (rxByteStep (s.popped events)).timers.attemptCnt = 0#16 := fun events waits => by
        rw [rxByteStep_of_rx (s := s.popped events) rx source] at waits ⊢
        exact attemptCnt_of_endRxFrame waits
      have sameSt : (rxByteStep (s.popped rest)).st = .waitAck := by rw [← afterByte]; exact waits
      have cfg : (rxByteStep (s.popped rest)).cfg = s.cfg := (kept_rxByteStep (s.popped rest)).cfg
      exact ⟨ended _ waits, fun long => tickStep_of_fresh_attempt sameSt (ended _ sameSt) (cfg ▸ long)⟩

end Sys2Proof.Machine
end
